-- ==== Sys2Proof/Word.lean ====
section
/-!
DEFINITION. The word types of the ILK-2048 and the operand kinds of its instructions and events
(R122, R131, R133, R135, R184, R297, R298, R318): names only, no meaning.
-/

namespace Sys2Proof

/-- A 64-bit integer register, CSR or address (R135). -/
abbrev Word := BitVec 64
/-- An instruction word (R122). -/
abbrev IWord := BitVec 32
/-- One byte. -/
abbrev Byte := BitVec 8
/-- A vector register: VLEN is 2,048 on this part (R135). -/
abbrev Vec := BitVec 2048
/-- A predicate register: one bit per byte lane (R135). -/
abbrev Pred := BitVec 256
/-- An x or v register number. -/
abbrev Reg := BitVec 5
/-- A predicate register number, p0 to p7 (R131 class p). -/
abbrev PReg := BitVec 3
/-- A governing predicate, p0 to p3 (R130). -/
abbrev Pg := BitVec 2
/-- An accumulator number, m0 to m15 (R129: bit 4 of the field is clear). -/
abbrev Acc := BitVec 4

/-- VLENB, the bytes of a vector register (R137). -/
def vlenb : Nat := 256

/-- Floating-point element types, class F (R131). -/
inductive FpTy where
  | f32 | bf16 | f16
deriving DecidableEq, Repr

/-- Integer element sizes, class I (R131). -/
inductive IntTy where
  | i8 | i16 | i32 | i64
deriving DecidableEq, Repr

/-- Source type codes of VFCVT, class t (R131). -/
inductive SrcTy where
  | f32 | bf16 | f16 | i32 | i64
deriving DecidableEq, Repr

/-- Element types of the VI form (R133). -/
inductive ViTy where
  | f32 | bf16 | f16 | fp8
deriving DecidableEq, Repr

/-- The size in bytes of an FP element (R184). -/
def FpTy.size : FpTy → Nat
  | .f32 => 4 | .bf16 => 2 | .f16 => 2

/-- The size in bytes of an integer element (R184). -/
def IntTy.size : IntTy → Nat
  | .i8 => 1 | .i16 => 2 | .i32 => 4 | .i64 => 8

/-- The size in bytes of a VFCVT source element (R195). -/
def SrcTy.size : SrcTy → Nat
  | .f32 => 4 | .bf16 => 2 | .f16 => 2 | .i32 => 4 | .i64 => 8

/-- The source code that names the same type as an FP element type (R131: such a code is illegal). -/
def FpTy.asSrc : FpTy → SrcTy
  | .f32 => .f32 | .bf16 => .bf16 | .f16 => .f16

/-- A slot that can issue instructions (R8): thread slot `i` of logical tile `t` of launch `l`
(the model's launch number), or the handler slot of a physical tile of a package. -/
inductive Slot where
  | thread (l t i : Nat)
  | handler (pkg phys : Nat)
deriving DecidableEq, Repr

/-- What firmware does with an escalated trap (R298): map the page on demand (home package and physical
page number), realign the stream (R320), or kill the task. -/
inductive EscAction where
  | map (home ppn : Nat)
  | realign
  | kill
deriving DecidableEq, Repr

/-- Where an error is found: the SRAM places of R87, or a 64-byte line of a physical page of HBM whose integrity tag fails
(R341). -/
inductive SramPlace where
  | committedTm | retainedBank | deltaPool | liveBank | accumulators | inFlight | dieCache | instrCache
  | hbmLine (home ppn : Nat)
deriving DecidableEq, Repr

/-- What the ROM finds in the Thinte image at a release from reset (R369, R370): the SHAKE256 hash of its public key, whether
its signature verifies, its security version, its SHAKE256 measurement, and the minimum that its firmware fuses when it has
been accepted. -/
structure RomImage where
  keyHash : BitVec 256
  verified : Bool
  version : BitVec 32
  measurement : BitVec 512
  raise : BitVec 32
deriving DecidableEq, Repr

/-- A release from reset: the image in board flash, and the size of window B, 2^bar GiB, that the host sets through the
Resizable BAR capability (R358; log entry 55). -/
structure Release where
  img : RomImage
  bar : Nat
deriving DecidableEq, Repr

/-- The domain whose launch the scheduler is to start or resume, and the CCE weight that firmware gives the launch's tiles
(R16, R43). -/
structure Placing where
  dom : Nat
  weight : Nat
deriving DecidableEq, Repr

/-- A spare that takes over (R353): its number, the launches that lost a page of which firmware has no other copy, and the pawn
schedule that firmware announces, with the visit from which it applies. -/
structure Spare where
  pkg : Nat
  lost : List Nat
  sched : Option (Nat × List (BitVec 32))
deriving DecidableEq, Repr

/-- How the write of a context image ends (R318). A missing translation is found by the save itself. -/
inductive SaveResult where
  | written | uncorrectable
deriving DecidableEq, Repr

/-- What firmware gives a domain on a package (R367): dies, stacks, page-table root, handler image VA, event log VA and DEBUG
bit, its entries of the region table (R366), the partner package of its checkpoints (R351), the size in pages of the package's
shadow pool where firmware sets it (R64), a new pawn schedule that firmware announces with the visit from which it applies
(R344), and whether the package stands by as a spare (R353). -/
structure DomCfg where
  dies : BitVec 8
  hbmStacks : BitVec 16
  root : Nat
  handlerVa : Word
  eventLogVa : Word
  debug : Bool
  regions : List (BitVec 64)
  partner : Option Nat
  poolSize : Option Nat
  sched : Option (Nat × List (BitVec 32))
  spare : Bool
  /-- The domain's network-on-chip plane. -/
  plane : Nat
deriving DecidableEq, Repr

/-- A configuration of nothing. -/
def DomCfg.zero : DomCfg := { dies := 0, hbmStacks := 0, plane := 0, root := 0, handlerVa := 0, eventLogVa := 0, debug := false,
                              regions := [], partner := none, poolSize := none, sched := none, spare := false }

end Sys2Proof
end

