-- ==== Sys2Proof/Syntax.lean ====
section
/-!
DEFINITION. The syntax of the machine: one constructor per row of spec/opcode_table.json. The first 212 rows with
an encoding are instruction words (R122-R133); the others are the events of the part's agents (95_what_each_step_holds.md),
whose arguments say which object the event concerns.
-/

namespace Sys2Proof

/-- One constructor per row of the opcode table. Register operands come in the order of the assembly form. -/
inductive Instr where
  -- control transfer (R164, R165); imm fields as encoded, without the implied low zero bit for B and J
  | lui (rd : Reg) (imm : BitVec 20)
  | auipc (rd : Reg) (imm : BitVec 20)
  | jal (rd : Reg) (imm : BitVec 20)
  | jalr (rd rs1 : Reg) (imm : BitVec 12)
  | beq (rs1 rs2 : Reg) (imm : BitVec 12)
  | bne (rs1 rs2 : Reg) (imm : BitVec 12)
  | blt (rs1 rs2 : Reg) (imm : BitVec 12)
  | bge (rs1 rs2 : Reg) (imm : BitVec 12)
  | bltu (rs1 rs2 : Reg) (imm : BitVec 12)
  | bgeu (rs1 rs2 : Reg) (imm : BitVec 12)
  -- loads and stores (R167)
  | lb (rd rs1 : Reg) (imm : BitVec 12)
  | lh (rd rs1 : Reg) (imm : BitVec 12)
  | lw (rd rs1 : Reg) (imm : BitVec 12)
  | ld (rd rs1 : Reg) (imm : BitVec 12)
  | lbu (rd rs1 : Reg) (imm : BitVec 12)
  | lhu (rd rs1 : Reg) (imm : BitVec 12)
  | lwu (rd rs1 : Reg) (imm : BitVec 12)
  | sb (rs2 rs1 : Reg) (imm : BitVec 12)
  | sh (rs2 rs1 : Reg) (imm : BitVec 12)
  | sw (rs2 rs1 : Reg) (imm : BitVec 12)
  | sd (rs2 rs1 : Reg) (imm : BitVec 12)
  -- immediates (R161)
  | addi (rd rs1 : Reg) (imm : BitVec 12)
  | slti (rd rs1 : Reg) (imm : BitVec 12)
  | sltiu (rd rs1 : Reg) (imm : BitVec 12)
  | xori (rd rs1 : Reg) (imm : BitVec 12)
  | ori (rd rs1 : Reg) (imm : BitVec 12)
  | andi (rd rs1 : Reg) (imm : BitVec 12)
  | slli (rd rs1 : Reg) (sh : BitVec 6)
  | srli (rd rs1 : Reg) (sh : BitVec 6)
  | srai (rd rs1 : Reg) (sh : BitVec 6)
  | addiw (rd rs1 : Reg) (imm : BitVec 12)
  | slliw (rd rs1 : Reg) (sh : BitVec 5)
  | srliw (rd rs1 : Reg) (sh : BitVec 5)
  | sraiw (rd rs1 : Reg) (sh : BitVec 5)
  -- register-register (R162)
  | add (rd rs1 rs2 : Reg)
  | sub (rd rs1 rs2 : Reg)
  | sll (rd rs1 rs2 : Reg)
  | slt (rd rs1 rs2 : Reg)
  | sltu (rd rs1 rs2 : Reg)
  | xor (rd rs1 rs2 : Reg)
  | srl (rd rs1 rs2 : Reg)
  | sra (rd rs1 rs2 : Reg)
  | or (rd rs1 rs2 : Reg)
  | and (rd rs1 rs2 : Reg)
  | addw (rd rs1 rs2 : Reg)
  | subw (rd rs1 rs2 : Reg)
  | sllw (rd rs1 rs2 : Reg)
  | srlw (rd rs1 rs2 : Reg)
  | sraw (rd rs1 rs2 : Reg)
  -- M (R163)
  | mul (rd rs1 rs2 : Reg)
  | mulh (rd rs1 rs2 : Reg)
  | mulhsu (rd rs1 rs2 : Reg)
  | mulhu (rd rs1 rs2 : Reg)
  | div (rd rs1 rs2 : Reg)
  | divu (rd rs1 rs2 : Reg)
  | rem (rd rs1 rs2 : Reg)
  | remu (rd rs1 rs2 : Reg)
  | mulw (rd rs1 rs2 : Reg)
  | divw (rd rs1 rs2 : Reg)
  | divuw (rd rs1 rs2 : Reg)
  | remw (rd rs1 rs2 : Reg)
  | remuw (rd rs1 rs2 : Reg)
  -- system (R173-R176)
  | fence (fm pred succ : BitVec 4)
  | fenceI
  | ecall
  | ebreak
  | csrrw (rd : Reg) (csr : BitVec 12) (rs1 : Reg)
  | csrrs (rd : Reg) (csr : BitVec 12) (rs1 : Reg)
  | csrrc (rd : Reg) (csr : BitVec 12) (rs1 : Reg)
  | csrrwi (rd : Reg) (csr : BitVec 12) (uimm : BitVec 5)
  | csrrsi (rd : Reg) (csr : BitVec 12) (uimm : BitVec 5)
  | csrrci (rd : Reg) (csr : BitVec 12) (uimm : BitVec 5)
  | illegalInstruction (w : IWord)
  -- S-space (R127)
  | sync (rd rs1 : Reg)
  | exit
  | trig
  | launch (rs1 : Reg)
  | abortreq (rs1 : Reg)
  | hret (rs1 : Reg)
  | cpget (rd rs1 : Reg)
  | cpput (rd rs1 : Reg)
  | cppeer (rd rs1 : Reg)
  | cpwait (rs1 : Reg)
  | cptest (rd rs1 : Reg)
  | flist (rs1 : Reg)
  | give (rs1 rs2 : Reg)
  | raddw (rs2 rs1 : Reg)
  | raddd (rs2 rs1 : Reg)
  | rfadds (rs2 rs1 : Reg)
  | rmind (rs2 rs1 : Reg)
  | rmaxd (rs2 rs1 : Reg)
  | rord (rs2 rs1 : Reg)
  | randd (rs2 rs1 : Reg)
  | rxord (rs2 rs1 : Reg)
  | send (rs1 rs2 : Reg)
  | redadd (rs2 rs1 : Reg)
  | gfaa (rd rs2 rs1 : Reg)
  | gredAddd (rs1 rs2 : Reg)
  | gredMind (rs1 rs2 : Reg)
  | gredMaxd (rs1 rs2 : Reg)
  | gredAndd (rs1 rs2 : Reg)
  | gredOrd (rs1 rs2 : Reg)
  | gredXord (rs1 rs2 : Reg)
  | gredFadds (rs1 rs2 : Reg)
  | gredFmins (rs1 rs2 : Reg)
  | gredFmaxs (rs1 rs2 : Reg)
  | gresAddd (rd rs1 : Reg)
  | gresMind (rd rs1 : Reg)
  | gresMaxd (rd rs1 : Reg)
  | gresAndd (rd rs1 : Reg)
  | gresOrd (rd rs1 : Reg)
  | gresXord (rd rs1 : Reg)
  | gresFadds (rd rs1 : Reg)
  | gresFmins (rd rs1 : Reg)
  | gresFmaxs (rd rs1 : Reg)
  | bst (rs1 rs2 : Reg)
  | bld (rd rs1 : Reg)
  | tlook (rd rs1 : Reg)
  | tins (rs1 rs2 : Reg)
  | tdel (rs1 : Reg)
  | tclr
  | rep (count : BitVec 6) (steps : BitVec 3) (stride : BitVec 3)
  | stall (n : BitVec 12)
  | stallExpiry (slot : Slot)
  -- vector memory (R128)
  | vld (vd rs1 : Reg) (pg : Pg)
  | vldpi (vd rs1 : Reg) (pg : Pg)
  | vst (vs rs1 : Reg) (pg : Pg)
  | vstpi (vs rs1 : Reg) (pg : Pg)
  | vlds (vd rs1 rs2 : Reg) (pg : Pg)
  | vsts (vs rs1 rs2 : Reg) (pg : Pg)
  | vgath (vd rs1 vi : Reg) (pg : Pg)
  | vscat (vs rs1 vi : Reg) (pg : Pg)
  | pldr (pd : PReg) (rs1 : Reg)
  | pstr (ps : PReg) (rs1 : Reg)
  -- VR form (R132)
  | vfadd (es : FpTy) (vd vs1 vs2 : Reg) (pg : Pg)
  | vfsub (es : FpTy) (vd vs1 vs2 : Reg) (pg : Pg)
  | vfmul (es : FpTy) (vd vs1 vs2 : Reg) (pg : Pg)
  | vfma (es : FpTy) (vd vs1 vs2 : Reg) (pg : Pg)
  | vfnms (es : FpTy) (vd vs1 vs2 : Reg) (pg : Pg)
  | vfmin (es : FpTy) (vd vs1 vs2 : Reg) (pg : Pg)
  | vfmax (es : FpTy) (vd vs1 vs2 : Reg) (pg : Pg)
  | vfabs (es : FpTy) (vd vs1 : Reg) (pg : Pg)
  | vfneg (es : FpTy) (vd vs1 : Reg) (pg : Pg)
  | vfceq (es : FpTy) (pd : PReg) (vs1 vs2 : Reg) (pg : Pg)
  | vfclt (es : FpTy) (pd : PReg) (vs1 vs2 : Reg) (pg : Pg)
  | vfcle (es : FpTy) (pd : PReg) (vs1 vs2 : Reg) (pg : Pg)
  | vfsumr (es : FpTy) (vd vs1 : Reg) (pg : Pg)
  | vfmaxr (es : FpTy) (vd vs1 : Reg) (pg : Pg)
  | vfcvt (es : FpTy) (src : SrcTy) (vd vs1 : Reg) (pg : Pg)
  | vfcpys (es : FpTy) (vd vs1 vs2 : Reg) (pg : Pg)
  | vfrcp (es : FpTy) (vd vs1 : Reg) (pg : Pg)
  | vfrsq (es : FpTy) (vd vs1 : Reg) (pg : Pg)
  | vfsqrt (es : FpTy) (vd vs1 : Reg) (pg : Pg)
  | vfdiv (es : FpTy) (vd vs1 vs2 : Reg) (pg : Pg)
  | vfexp2 (es : FpTy) (vd vs1 : Reg) (pg : Pg)
  | vflog2 (es : FpTy) (vd vs1 : Reg) (pg : Pg)
  | vftanh (es : FpTy) (vd vs1 : Reg) (pg : Pg)
  | sfuRequestComplete (l t : Nat)
  | vcvtn (vd vs1 : Reg) (f : BitVec 3) (pg : Pg)
  | vcvtw (vd vs1 : Reg) (f : BitVec 3) (pg : Pg)
  | vscale (vd vs1 vs2 : Reg) (pg : Pg)
  | vbmax (vd vs1 : Reg) (f : BitVec 3) (pg : Pg)
  | vadd (es : IntTy) (vd vs1 vs2 : Reg) (pg : Pg)
  | vsub (es : IntTy) (vd vs1 vs2 : Reg) (pg : Pg)
  | vmul (es : IntTy) (vd vs1 vs2 : Reg) (pg : Pg)
  | vmulh (es : IntTy) (vd vs1 vs2 : Reg) (pg : Pg)
  | vand (es : IntTy) (vd vs1 vs2 : Reg) (pg : Pg)
  | vor (es : IntTy) (vd vs1 vs2 : Reg) (pg : Pg)
  | vxor (es : IntTy) (vd vs1 vs2 : Reg) (pg : Pg)
  | vsll (es : IntTy) (vd vs1 vs2 : Reg) (pg : Pg)
  | vsrl (es : IntTy) (vd vs1 vs2 : Reg) (pg : Pg)
  | vsra (es : IntTy) (vd vs1 vs2 : Reg) (pg : Pg)
  | vmin (es : IntTy) (vd vs1 vs2 : Reg) (pg : Pg)
  | vmax (es : IntTy) (vd vs1 vs2 : Reg) (pg : Pg)
  | vminu (es : IntTy) (vd vs1 vs2 : Reg) (pg : Pg)
  | vmaxu (es : IntTy) (vd vs1 vs2 : Reg) (pg : Pg)
  | viceq (es : IntTy) (pd : PReg) (vs1 vs2 : Reg) (pg : Pg)
  | viclt (es : IntTy) (pd : PReg) (vs1 vs2 : Reg) (pg : Pg)
  | vicltu (es : IntTy) (pd : PReg) (vs1 vs2 : Reg) (pg : Pg)
  | vsel (vd vs1 vs2 : Reg) (pg : Pg)
  | vperm (es : IntTy) (vd vs1 vs2 : Reg) (pg : Pg)
  | vslup (es : IntTy) (vd vs2 rs1 : Reg) (pg : Pg)
  | vsldn (es : IntTy) (vd vs2 rs1 : Reg) (pg : Pg)
  | vzip (es : IntTy) (vd vs1 vs2 : Reg) (pg : Pg)
  | vunzip (es : IntTy) (vd vs1 vs2 : Reg) (pg : Pg)
  | viota (es : IntTy) (vd : Reg) (pg : Pg)
  | vdupx (es : IntTy) (vd rs1 : Reg) (pg : Pg)
  | vmvxs (es : IntTy) (rd vs2 rs1 : Reg)
  | visumr (es : IntTy) (vd vs1 : Reg) (pg : Pg)
  | pwhilelt (es : IntTy) (pd : PReg) (rs1 rs2 : Reg)
  | plogicAnd (pd ps1 ps2 : PReg)
  | plogicOr (pd ps1 ps2 : PReg)
  | plogicXor (pd ps1 ps2 : PReg)
  | plogicAndn (pd ps1 ps2 : PReg)
  | pcnt (es : IntTy) (rd : Reg) (ps1 : PReg)
  | pfirst (es : IntTy) (pd ps1 : PReg)
  -- VI form (R133)
  | vli (es : ViTy) (vd : Reg) (imm : BitVec 16)
  | vaddi (es : ViTy) (vd : Reg) (imm : BitVec 16)
  | vmuli (es : ViTy) (vd : Reg) (imm : BitVec 16)
  | vmaxi (es : ViTy) (vd : Reg) (imm : BitVec 16)
  -- M-space (R129)
  | mzero (md : Acc)
  | mma (md : Acc) (rs1 rs2 : Reg)
  | mmas (md : Acc) (rs1 rs2 : Reg)
  | mmav (md : Acc) (va : Reg) (rs2 : Reg)
  | mrd (vd : Reg) (ms : Acc) (rs1 : Reg)
  | mwr (md : Acc) (vs rs1 : Reg)
  | mst (ms : Acc) (rs1 : Reg)
  | mwait (md : Acc)
  | matrixRequestStart (l t : Nat)
  | matrixRequestComplete (l t n : Nat)
  | qrv (vd rs1 : Reg)
  | qrvf (vd rs1 : Reg)
  | qrx (rd rs1 rs2 : Reg)
  | qrnext
  | qrskip (rs1 : Reg)
  | qrtld (rs1 rs2 : Reg)
  | pipv (vd : Reg)
  -- events of the memory system and of the traps
  | accessResult (slot : Slot) (k : Nat)
  | copyComplete (l t n : Nat) (tag : Word)
  | cceRound (pkg die cluster : Nat)
  | trapDelivery (l t n : Nat)
  | escalatedTrap (l t n : Nat) (act : EscAction)
  -- events of the superstep
  | waveEnd (l : Nat)
  | vote (l p : Nat)
  | ladderClose (l p : Nat)
  | checkpointPauseEnd (l : Nat)
  | earlyAbort (l : Nat)
  | sramError (l t : Nat) (place : SramPlace) (rebuilt : Bool)
  | residueMismatch (l t : Nat)
  | stageEnd (l : Nat)
  | contextSaveComplete (l t : Nat) (result : SaveResult)
  -- events of the scheduler
  | launchStart (pkg : Nat) (dom : Placing)
  | aging (pkg dom q k : Nat)
  | preemptionRequest (l : Nat)
  | powerParkTimeout (pkg : Nat)
  | dieOutOfService (pkg die : Nat)
  -- events of the fabric
  | packetReceive (k : Nat)
  | packetAck (k : Nat)
  | packetRefusal (k : Nat)
  | flit (pkg port first : Nat) (corrected : List Nat) (bad : List Bool)
  | subWindowEnd (pkg port lane : Nat)
  | laneWithdrawal (pkg port lane : Nat)
  | laneRejoin (pkg port lane : Nat)
  | lockAttemptTimeout (pkg port lane : Nat)
  | retryWaitEnd (pkg port lane : Nat)
  | portLost (pkg port : Nat)
  | pathTableRewrite (pkg : Nat) (entries : List (Nat × BitVec 64))
  -- events of the broadcast plane
  | visit
  | pawnFrame (pkg : Nat)
  | voteFrame (pkg : Nat)
  | commitFrame (pkg : Nat)
  | bcastFrame (pkg : Nat)
  | packageFailed (pkg : Nat)
  | spareTakeover (failed : Nat) (spare : Spare)
  -- events of the host, the board and the platform
  | qpush (pkg dom q : Nat) (va : Word)
  | wbsel (pkg dom : Nat) (v : Word)
  | evtail (pkg dom : Nat) (v : Word)
  | rstgo (pkg dom : Nat) (v : Word)
  | attgo (pkg : Nat) (va : Word)
  | attestationReport (pkg : Nat)
  | pwrstep (pkg : Nat) (v : Word)
  | pbcmdStart (pkg : Nat)
  | pbcmdCommit (pkg : Nat)
  | pbcmdAbandon (pkg : Nat)
  | clrfail (pkg port : Nat)
  | registerWrite (pkg offset size : Nat) (v : Word) (secure : Bool)
  | windowBRead (pkg offset size : Nat)
  | windowBWrite (pkg offset : Nat) (bytes : List Byte)
  | i3cPrivateWrite (pkg : Nat) (addr : BitVec 16) (v : Word)
  | i3cPrivateRead (pkg : Nat) (addr : BitVec 16)
  | gridstepSample (pkg : Nat) (pins : BitVec 3)
  | walkStart (pkg : Nat)
  | walkStep (pkg : Nat)
  | pfail (pkg : Nat)
  | drainStart (pkg : Nat)
  | drainEnd (pkg : Nat)
  | resetRelease (pkg : Nat) (rel : Release)
  | clusterWake (pkg : Nat) (ok : Bool)
  | hbmTraining (pkg : Nat) (failed : BitVec 16)
  | sramInitialisation (pkg : Nat) (failed : List Nat)
  | opticalTraining (pkg : Nat) (failed : List (Nat × Nat)) (pairing : List (Nat × BitVec 64)) (members : List Nat) (sched : List (BitVec 32))
  | activate (pkg stack bank row : Nat)
  | bankRefresh (pkg stack bank : Nat)
  | powerReturn (pkg : Nat)
  | missedFrame (pkg : Nat)
  | pageTableWrite (pkg dom : Nat) (va : Word) (pte : BitVec 64)
  | divideComplete (slot : Slot)
  | heldLaunchDecision (l : Nat) (retry : Bool)
  | heldTilesRelease (l : Nat)
  | domainConfiguration (pkg dom : Nat) (cfg : DomCfg)
deriving DecidableEq, Repr

end Sys2Proof
end

