-- ==== Sys2Proof/WellFormed.lean ====
section
/-!
DEFINITION. Which terms of Instr stand for an encodable instruction or for an event the part can have: the operand
limits of R125, R129, R131, R133, R150, R127 that the types do not already give, and the ranges of the
indices that name packages (R335), dies, clusters (R7), ports, lanes (R328), domains (R367), queues (R30) and stacks.
-/

namespace Sys2Proof

/-- An even register number, as a descriptor pair needs (R129). -/
def evenPair (r : Reg) : Bool := r.toNat % 2 == 0

/-- A logical package number (R335, R344). -/
def okPkg (p : Nat) : Bool := decide (p < 192)
/-- A port of the package and a lane of the port (R328). -/
def okPort (port : Nat) : Bool := decide (port < 28)
def okLane (port lane : Nat) : Bool := okPort port && decide (lane < 64)
/-- A domain of the package and a queue of the domain (R367, R30). -/
def okDom (d : Nat) : Bool := decide (d < 4)
def okQueue (q : Nat) : Bool := decide (q < 8)

/-- The slot names an existing thread slot of a tile or an existing physical tile of a package (R8, R18). -/
def Slot.wf : Slot → Bool
  | .thread _ _ i => decide (i < 4)
  | .handler p ph => okPkg p && decide (ph < 2048)

/-- The instruction obeys the operand limits that make its word legal (R125), and an event names objects that exist. -/
def Instr.wf : Instr → Bool
  | .rep _ _ stride => decide (stride.toNat ≤ 4)
  | .stall n => decide (n ≠ 0)
  | .vfcvt es src _ _ _ => decide (src ≠ es.asSrc)
  | .vaddi es _ _ => decide (es ≠ .fp8)
  | .vmuli es _ _ => decide (es ≠ .fp8)
  | .vmaxi es _ _ => decide (es ≠ .fp8)
  | .mma _ a b => evenPair a && evenPair b
  | .mmas _ a b => evenPair a && evenPair b
  | .mmav _ va b => (va == 0 || va == 16) && evenPair b
  | .mst _ a => evenPair a
  | .stallExpiry slot => slot.wf
  | .accessResult slot _ => slot.wf
  | .divideComplete slot => slot.wf
  | .matrixRequestComplete _ _ i => decide (i < 4)
  | .copyComplete _ _ i _ => decide (i < 4)
  | .cceRound p d c => okPkg p && decide (d < 8) && decide (c < 16)
  | .trapDelivery _ _ i => decide (i < 4)
  | .escalatedTrap _ _ i _ => decide (i < 4)
  | .vote _ p => okPkg p
  | .ladderClose _ p => okPkg p
  | .launchStart p d => okPkg p && okDom d.dom && decide (1 ≤ d.weight ∧ d.weight ≤ 15)
  | .aging p d q _ => okPkg p && okDom d && okQueue q
  | .powerParkTimeout p => okPkg p
  | .dieOutOfService p d => okPkg p && decide (d < 8)
  | .flit p port _ corrected bad => okPkg p && okPort port && decide (corrected.length = 8 ∧ bad.length = 8)
  | .subWindowEnd p port lane => okPkg p && okLane port lane
  | .laneWithdrawal p port lane => okPkg p && okLane port lane
  | .laneRejoin p port lane => okPkg p && okLane port lane
  | .lockAttemptTimeout p port lane => okPkg p && okLane port lane
  | .retryWaitEnd p port lane => okPkg p && okLane port lane
  | .portLost p port => okPkg p && okPort port
  | .pathTableRewrite p es => okPkg p && es.all fun e => decide (e.1 < 768)
  | .pawnFrame p => okPkg p
  | .voteFrame p => okPkg p
  | .commitFrame p => okPkg p
  | .bcastFrame p => okPkg p
  | .packageFailed p => okPkg p
  | .spareTakeover f s => okPkg f && okPkg s.pkg && decide (f ≠ s.pkg)
  | .qpush p d q _ => okPkg p && okDom d && okQueue q
  | .wbsel p d _ => okPkg p && okDom d
  | .evtail p d _ => okPkg p && okDom d
  | .rstgo p d _ => okPkg p && okDom d
  | .attgo p _ => okPkg p
  | .attestationReport p => okPkg p
  | .pwrstep p _ => okPkg p
  | .pbcmdStart p => okPkg p
  | .pbcmdCommit p => okPkg p
  | .pbcmdAbandon p => okPkg p
  | .clrfail p port => okPkg p && okPort port
  | .registerWrite p off size _ _ => okPkg p && decide (off < 2 ^ 24) && decide (1 ≤ size)
  | .windowBRead p _ size => okPkg p && decide (1 ≤ size ∧ size ≤ 8)
  | .windowBWrite p _ bytes => okPkg p && decide (1 ≤ bytes.length ∧ bytes.length ≤ 64)
  | .i3cPrivateWrite p _ _ => okPkg p
  | .i3cPrivateRead p _ => okPkg p
  | .gridstepSample p _ => okPkg p
  | .walkStart p => okPkg p
  | .walkStep p => okPkg p
  | .pfail p => okPkg p
  | .drainStart p => okPkg p
  | .drainEnd p => okPkg p
  | .resetRelease p r => okPkg p && decide (r.bar ≤ 9)
  | .clusterWake p _ => okPkg p
  | .hbmTraining p _ => okPkg p
  | .sramInitialisation p failed => okPkg p && failed.all fun t => decide (t < 2048)
  | .opticalTraining p failed pairing members _ =>
      okPkg p && (failed.all fun e => okLane e.1 e.2) && (pairing.all fun e => decide (e.1 < 2048)) && members.all okPkg
  | .activate p st _ _ => okPkg p && decide (st < 16)
  | .bankRefresh p st _ => okPkg p && decide (st < 16)
  | .powerReturn p => okPkg p
  | .missedFrame p => okPkg p
  | .pageTableWrite p d _ _ => okPkg p && okDom d
  | .domainConfiguration p d _ => okPkg p && okDom d
  | _ => true

end Sys2Proof
end

