-- ==== Sys2Proof/Decode.lean ====
section
/-!
DEFINITION. The decoder of instruction words, total on any word and rejecting by name (R122-R133), and after it
the encoder written from the same tables. Whether a decoded word is legal in the slot that issues it (R134, R136, R138,
R150-R156) is for its meaning.
-/

namespace Sys2Proof

/-- Why a word is no instruction (R125). -/
inductive Reject where
  | lowBits | opcode | funct3 | funct7 | shiftImm | miscMem | system | reserved | operation | vmop | vop6
  | elementType | typeCode | predicateField | formatField | accumulator | oddPair | vectorHalf | repField | stallZero
deriving DecidableEq, Repr

/-- Bits [lo + n - 1 : lo] of a word. -/
def fld (w : IWord) (lo n : Nat) : BitVec n := BitVec.ofNat n (w.toNat / 2 ^ lo)

/-- The value of a field as a number. -/
def fldN (w : IWord) (lo n : Nat) : Nat := w.toNat / 2 ^ lo % 2 ^ n

/-- The immediate of the S format (R123). -/
def immS (w : IWord) : BitVec 12 := BitVec.ofNat 12 (fldN w 25 7 * 32 + fldN w 7 5)

/-- Bits [12:1] of the immediate of the B format (R123). -/
def immB (w : IWord) : BitVec 12 :=
  BitVec.ofNat 12 (fldN w 31 1 * 2048 + fldN w 7 1 * 1024 + fldN w 25 6 * 16 + fldN w 8 4)

/-- Bits [20:1] of the immediate of the J format (R123). -/
def immJ (w : IWord) : BitVec 20 :=
  BitVec.ofNat 20 (fldN w 31 1 * 524288 + fldN w 12 8 * 2048 + fldN w 20 1 * 1024 + fldN w 21 10)

def rdF (w : IWord) : Reg := fld w 7 5
def rs1F (w : IWord) : Reg := fld w 15 5
def rs2F (w : IWord) : Reg := fld w 20 5
def immI (w : IWord) : BitVec 12 := fld w 20 12

/-- The class F element types (R131). -/
def decodeFp : Nat → Option FpTy
  | 0 => some .f32 | 1 => some .bf16 | 2 => some .f16 | _ => none

/-- The class I element sizes (R131). -/
def decodeInt : Nat → IntTy
  | 0 => .i8 | 1 => .i16 | 2 => .i32 | _ => .i64

/-- The VI element types (R133). -/
def decodeVi : Nat → ViTy
  | 0 => .f32 | 1 => .bf16 | 2 => .f16 | _ => .fp8

/-- The class t source type codes (R131). -/
def decodeSrc : Nat → Option SrcTy
  | 0 => some .f32 | 1 => some .bf16 | 2 => some .f16 | 3 => some .i32 | 4 => some .i64 | _ => none

/-- LOAD (R167). -/
def decodeLoad (w : IWord) : Except Reject Instr :=
  match fldN w 12 3 with
  | 0 => .ok (.lb (rdF w) (rs1F w) (immI w))
  | 1 => .ok (.lh (rdF w) (rs1F w) (immI w))
  | 2 => .ok (.lw (rdF w) (rs1F w) (immI w))
  | 3 => .ok (.ld (rdF w) (rs1F w) (immI w))
  | 4 => .ok (.lbu (rdF w) (rs1F w) (immI w))
  | 5 => .ok (.lhu (rdF w) (rs1F w) (immI w))
  | 6 => .ok (.lwu (rdF w) (rs1F w) (immI w))
  | _ => .error .funct3

/-- STORE (R167). -/
def decodeStore (w : IWord) : Except Reject Instr :=
  match fldN w 12 3 with
  | 0 => .ok (.sb (rs2F w) (rs1F w) (immS w))
  | 1 => .ok (.sh (rs2F w) (rs1F w) (immS w))
  | 2 => .ok (.sw (rs2F w) (rs1F w) (immS w))
  | 3 => .ok (.sd (rs2F w) (rs1F w) (immS w))
  | _ => .error .funct3

/-- OP-IMM (R161). -/
def decodeOpImm (w : IWord) : Except Reject Instr :=
  match fldN w 12 3 with
  | 0 => .ok (.addi (rdF w) (rs1F w) (immI w))
  | 2 => .ok (.slti (rdF w) (rs1F w) (immI w))
  | 3 => .ok (.sltiu (rdF w) (rs1F w) (immI w))
  | 4 => .ok (.xori (rdF w) (rs1F w) (immI w))
  | 6 => .ok (.ori (rdF w) (rs1F w) (immI w))
  | 7 => .ok (.andi (rdF w) (rs1F w) (immI w))
  | 1 => if fldN w 26 6 = 0 then .ok (.slli (rdF w) (rs1F w) (fld w 20 6)) else .error .shiftImm
  | _ =>
    if fldN w 26 6 = 0 then .ok (.srli (rdF w) (rs1F w) (fld w 20 6))
    else if fldN w 26 6 = 16 then .ok (.srai (rdF w) (rs1F w) (fld w 20 6))
    else .error .shiftImm

/-- OP-IMM-32 (R161). -/
def decodeOpImm32 (w : IWord) : Except Reject Instr :=
  match fldN w 12 3 with
  | 0 => .ok (.addiw (rdF w) (rs1F w) (immI w))
  | 1 => if fldN w 25 7 = 0 then .ok (.slliw (rdF w) (rs1F w) (fld w 20 5)) else .error .shiftImm
  | 5 =>
    if fldN w 25 7 = 0 then .ok (.srliw (rdF w) (rs1F w) (fld w 20 5))
    else if fldN w 25 7 = 32 then .ok (.sraiw (rdF w) (rs1F w) (fld w 20 5))
    else .error .shiftImm
  | _ => .error .funct3

/-- OP (R162, R163). -/
def decodeOp (w : IWord) : Except Reject Instr :=
  match fldN w 25 7, fldN w 12 3 with
  | 0, 0 => .ok (.add (rdF w) (rs1F w) (rs2F w))
  | 0, 1 => .ok (.sll (rdF w) (rs1F w) (rs2F w))
  | 0, 2 => .ok (.slt (rdF w) (rs1F w) (rs2F w))
  | 0, 3 => .ok (.sltu (rdF w) (rs1F w) (rs2F w))
  | 0, 4 => .ok (.xor (rdF w) (rs1F w) (rs2F w))
  | 0, 5 => .ok (.srl (rdF w) (rs1F w) (rs2F w))
  | 0, 6 => .ok (.or (rdF w) (rs1F w) (rs2F w))
  | 0, 7 => .ok (.and (rdF w) (rs1F w) (rs2F w))
  | 32, 0 => .ok (.sub (rdF w) (rs1F w) (rs2F w))
  | 32, 5 => .ok (.sra (rdF w) (rs1F w) (rs2F w))
  | 1, 0 => .ok (.mul (rdF w) (rs1F w) (rs2F w))
  | 1, 1 => .ok (.mulh (rdF w) (rs1F w) (rs2F w))
  | 1, 2 => .ok (.mulhsu (rdF w) (rs1F w) (rs2F w))
  | 1, 3 => .ok (.mulhu (rdF w) (rs1F w) (rs2F w))
  | 1, 4 => .ok (.div (rdF w) (rs1F w) (rs2F w))
  | 1, 5 => .ok (.divu (rdF w) (rs1F w) (rs2F w))
  | 1, 6 => .ok (.rem (rdF w) (rs1F w) (rs2F w))
  | 1, 7 => .ok (.remu (rdF w) (rs1F w) (rs2F w))
  | _, _ => .error .funct7

/-- OP-32 (R162, R163). -/
def decodeOp32 (w : IWord) : Except Reject Instr :=
  match fldN w 25 7, fldN w 12 3 with
  | 0, 0 => .ok (.addw (rdF w) (rs1F w) (rs2F w))
  | 0, 1 => .ok (.sllw (rdF w) (rs1F w) (rs2F w))
  | 0, 5 => .ok (.srlw (rdF w) (rs1F w) (rs2F w))
  | 32, 0 => .ok (.subw (rdF w) (rs1F w) (rs2F w))
  | 32, 5 => .ok (.sraw (rdF w) (rs1F w) (rs2F w))
  | 1, 0 => .ok (.mulw (rdF w) (rs1F w) (rs2F w))
  | 1, 4 => .ok (.divw (rdF w) (rs1F w) (rs2F w))
  | 1, 5 => .ok (.divuw (rdF w) (rs1F w) (rs2F w))
  | 1, 6 => .ok (.remw (rdF w) (rs1F w) (rs2F w))
  | 1, 7 => .ok (.remuw (rdF w) (rs1F w) (rs2F w))
  | _, _ => .error .funct7

/-- BRANCH (R165). -/
def decodeBranch (w : IWord) : Except Reject Instr :=
  match fldN w 12 3 with
  | 0 => .ok (.beq (rs1F w) (rs2F w) (immB w))
  | 1 => .ok (.bne (rs1F w) (rs2F w) (immB w))
  | 4 => .ok (.blt (rs1F w) (rs2F w) (immB w))
  | 5 => .ok (.bge (rs1F w) (rs2F w) (immB w))
  | 6 => .ok (.bltu (rs1F w) (rs2F w) (immB w))
  | 7 => .ok (.bgeu (rs1F w) (rs2F w) (immB w))
  | _ => .error .funct3

/-- MISC-MEM (R125, R173). -/
def decodeMiscMem (w : IWord) : Except Reject Instr :=
  if fldN w 7 5 = 0 ∧ fldN w 15 5 = 0 then
    match fldN w 12 3 with
    | 0 => .ok (.fence (fld w 28 4) (fld w 24 4) (fld w 20 4))
    | 1 => if fldN w 20 12 = 0 then .ok .fenceI else .error .miscMem
    | _ => .error .miscMem
  else .error .miscMem

/-- SYSTEM (R125, R174-R176). -/
def decodeSystem (w : IWord) : Except Reject Instr :=
  match fldN w 12 3 with
  | 0 =>
    if fldN w 7 5 = 0 ∧ fldN w 15 5 = 0 then
      if fldN w 20 12 = 0 then .ok .ecall
      else if fldN w 20 12 = 1 then .ok .ebreak
      else .error .system
    else .error .system
  | 1 => .ok (.csrrw (rdF w) (immI w) (rs1F w))
  | 2 => .ok (.csrrs (rdF w) (immI w) (rs1F w))
  | 3 => .ok (.csrrc (rdF w) (immI w) (rs1F w))
  | 5 => .ok (.csrrwi (rdF w) (immI w) (rs1F w))
  | 6 => .ok (.csrrsi (rdF w) (immI w) (rs1F w))
  | 7 => .ok (.csrrci (rdF w) (immI w) (rs1F w))
  | _ => .error .system

/-- Accept an instruction when its fields marked "—" are zero (R125). -/
def need (b : Bool) (r : Reject) (i : Instr) : Except Reject Instr := if b then .ok i else .error r

/-- S-space group 000: superstep control (R127). -/
def decodeS0 (w : IWord) : Except Reject Instr :=
  match fldN w 25 7 with
  | 0 => need (fldN w 20 5 == 0) .reserved (.sync (rdF w) (rs1F w))
  | 1 => need (fldN w 20 5 == 0 && fldN w 15 5 == 0 && fldN w 7 5 == 0) .reserved .exit
  | 2 => need (fldN w 20 5 == 0 && fldN w 15 5 == 0 && fldN w 7 5 == 0) .reserved .trig
  | 3 => need (fldN w 20 5 == 0 && fldN w 7 5 == 0) .reserved (.launch (rs1F w))
  | 4 => need (fldN w 20 5 == 0 && fldN w 7 5 == 0) .reserved (.abortreq (rs1F w))
  | 32 => need (fldN w 20 5 == 0 && fldN w 7 5 == 0) .reserved (.hret (rs1F w))
  | _ => .error .funct7

/-- S-space group 001: copies and ownership (R127). -/
def decodeS1 (w : IWord) : Except Reject Instr :=
  match fldN w 25 7 with
  | 0 => need (fldN w 20 5 == 0) .reserved (.cpget (rdF w) (rs1F w))
  | 1 => need (fldN w 20 5 == 0) .reserved (.cpput (rdF w) (rs1F w))
  | 2 => need (fldN w 20 5 == 0) .reserved (.cppeer (rdF w) (rs1F w))
  | 3 => need (fldN w 20 5 == 0 && fldN w 7 5 == 0) .reserved (.cpwait (rs1F w))
  | 4 => need (fldN w 20 5 == 0) .reserved (.cptest (rdF w) (rs1F w))
  | 5 => need (fldN w 20 5 == 0 && fldN w 7 5 == 0) .reserved (.flist (rs1F w))
  | 6 => need (fldN w 7 5 == 0) .reserved (.give (rs1F w) (rs2F w))
  | _ => .error .funct7

/-- S-space group 010: remote operations and messages (R127). -/
def decodeS2 (w : IWord) : Except Reject Instr :=
  match fldN w 25 7 with
  | 0 => need (fldN w 7 5 == 0) .reserved (.raddw (rs2F w) (rs1F w))
  | 1 => need (fldN w 7 5 == 0) .reserved (.raddd (rs2F w) (rs1F w))
  | 2 => need (fldN w 7 5 == 0) .reserved (.rfadds (rs2F w) (rs1F w))
  | 3 => need (fldN w 7 5 == 0) .reserved (.rmind (rs2F w) (rs1F w))
  | 4 => need (fldN w 7 5 == 0) .reserved (.rmaxd (rs2F w) (rs1F w))
  | 5 => need (fldN w 7 5 == 0) .reserved (.rord (rs2F w) (rs1F w))
  | 6 => need (fldN w 7 5 == 0) .reserved (.randd (rs2F w) (rs1F w))
  | 7 => need (fldN w 7 5 == 0) .reserved (.rxord (rs2F w) (rs1F w))
  | 8 => need (fldN w 7 5 == 0) .reserved (.send (rs1F w) (rs2F w))
  | 9 => need (fldN w 7 5 == 0) .reserved (.redadd (rs2F w) (rs1F w))
  | 10 => .ok (.gfaa (rdF w) (rs2F w) (rs1F w))
  | _ => .error .funct7

/-- S-space group 011: group reductions and the Broadcast Table (R127). -/
def decodeS3 (w : IWord) : Except Reject Instr :=
  match fldN w 25 7 with
  | 0 => need (fldN w 7 5 == 0) .reserved (.gredAddd (rs1F w) (rs2F w))
  | 1 => need (fldN w 7 5 == 0) .reserved (.gredMind (rs1F w) (rs2F w))
  | 2 => need (fldN w 7 5 == 0) .reserved (.gredMaxd (rs1F w) (rs2F w))
  | 3 => need (fldN w 7 5 == 0) .reserved (.gredAndd (rs1F w) (rs2F w))
  | 4 => need (fldN w 7 5 == 0) .reserved (.gredOrd (rs1F w) (rs2F w))
  | 5 => need (fldN w 7 5 == 0) .reserved (.gredXord (rs1F w) (rs2F w))
  | 6 => need (fldN w 7 5 == 0) .reserved (.gredFadds (rs1F w) (rs2F w))
  | 7 => need (fldN w 7 5 == 0) .reserved (.gredFmins (rs1F w) (rs2F w))
  | 8 => need (fldN w 7 5 == 0) .reserved (.gredFmaxs (rs1F w) (rs2F w))
  | 16 =>
    match fldN w 20 5 with
    | 0 => .ok (.gresAddd (rdF w) (rs1F w))
    | 1 => .ok (.gresMind (rdF w) (rs1F w))
    | 2 => .ok (.gresMaxd (rdF w) (rs1F w))
    | 3 => .ok (.gresAndd (rdF w) (rs1F w))
    | 4 => .ok (.gresOrd (rdF w) (rs1F w))
    | 5 => .ok (.gresXord (rdF w) (rs1F w))
    | 6 => .ok (.gresFadds (rdF w) (rs1F w))
    | 7 => .ok (.gresFmins (rdF w) (rs1F w))
    | 8 => .ok (.gresFmaxs (rdF w) (rs1F w))
    | _ => .error .operation
  | 32 => need (fldN w 7 5 == 0) .reserved (.bst (rs1F w) (rs2F w))
  | 33 => need (fldN w 20 5 == 0) .reserved (.bld (rdF w) (rs1F w))
  | _ => .error .funct7

/-- S-space group 100: the tag table (R127). -/
def decodeS4 (w : IWord) : Except Reject Instr :=
  match fldN w 25 7 with
  | 0 => need (fldN w 20 5 == 0) .reserved (.tlook (rdF w) (rs1F w))
  | 1 => need (fldN w 7 5 == 0) .reserved (.tins (rs1F w) (rs2F w))
  | 2 => need (fldN w 20 5 == 0 && fldN w 7 5 == 0) .reserved (.tdel (rs1F w))
  | 3 => need (fldN w 20 5 == 0 && fldN w 15 5 == 0 && fldN w 7 5 == 0) .reserved .tclr
  | _ => .error .funct7

/-- The VM form (R128). -/
def decodeVm (w : IWord) : Except Reject Instr :=
  if fldN w 25 1 = 0 then
    match fldN w 28 4 with
    | 0 => need (fldN w 20 5 == 0) .reserved (.vld (rdF w) (rs1F w) (fld w 26 2))
    | 1 => need (fldN w 20 5 == 0) .reserved (.vldpi (rdF w) (rs1F w) (fld w 26 2))
    | 2 => need (fldN w 20 5 == 0) .reserved (.vst (rdF w) (rs1F w) (fld w 26 2))
    | 3 => need (fldN w 20 5 == 0) .reserved (.vstpi (rdF w) (rs1F w) (fld w 26 2))
    | 4 => .ok (.vlds (rdF w) (rs1F w) (rs2F w) (fld w 26 2))
    | 5 => .ok (.vsts (rdF w) (rs1F w) (rs2F w) (fld w 26 2))
    | 6 => .ok (.vgath (rdF w) (rs1F w) (rs2F w) (fld w 26 2))
    | 7 => .ok (.vscat (rdF w) (rs1F w) (rs2F w) (fld w 26 2))
    | 8 => need (fldN w 20 5 == 0 && fldN w 26 2 == 0 && fldN w 10 2 == 0) .predicateField (.pldr (fld w 7 3) (rs1F w))
    | 9 => need (fldN w 20 5 == 0 && fldN w 26 2 == 0 && fldN w 10 2 == 0) .predicateField (.pstr (fld w 7 3) (rs1F w))
    | _ => .error .vmop
  else .error .reserved

/-- Custom-0 (R127, R128). -/
def decodeCustom0 (w : IWord) : Except Reject Instr :=
  match fldN w 12 3 with
  | 0 => decodeS0 w
  | 1 => decodeS1 w
  | 2 => decodeS2 w
  | 3 => decodeS3 w
  | 4 => decodeS4 w
  | 5 => need (fldN w 15 5 == 0 && fldN w 7 5 == 0 && decide (fldN w 20 3 ≤ 4)) .repField
      (.rep (fld w 26 6) (fld w 23 3) (fld w 20 3))
  | 6 => need (fldN w 15 5 == 0 && fldN w 7 5 == 0 && fldN w 20 12 != 0) .stallZero (.stall (immI w))
  | _ => decodeVm w

/-- Custom-1: the matrix and QRU groups (R129). -/
def decodeCustom1 (w : IWord) : Except Reject Instr :=
  match fldN w 12 3, fldN w 25 7 with
  | 0, 0 => need (fldN w 20 5 == 0 && fldN w 15 5 == 0 && fldN w 11 1 == 0) .accumulator (.mzero (fld w 7 4))
  | 0, 1 => need (fldN w 11 1 == 0 && fldN w 20 1 == 0 && fldN w 15 1 == 0) .oddPair (.mma (fld w 7 4) (rs1F w) (rs2F w))
  | 0, 2 => need (fldN w 11 1 == 0 && fldN w 20 1 == 0 && fldN w 15 1 == 0) .oddPair (.mmas (fld w 7 4) (rs1F w) (rs2F w))
  | 0, 3 => need (fldN w 11 1 == 0 && fldN w 20 1 == 0 && fldN w 15 4 == 0) .vectorHalf (.mmav (fld w 7 4) (rs1F w) (rs2F w))
  | 0, 4 => need (fldN w 24 1 == 0) .accumulator (.mrd (rdF w) (fld w 20 4) (rs1F w))
  | 0, 5 => need (fldN w 11 1 == 0) .accumulator (.mwr (fld w 7 4) (rs2F w) (rs1F w))
  | 0, 6 => need (fldN w 24 1 == 0 && fldN w 15 1 == 0 && fldN w 7 5 == 0) .oddPair (.mst (fld w 20 4) (rs1F w))
  | 0, 7 => need (fldN w 20 5 == 0 && fldN w 15 5 == 0 && fldN w 11 1 == 0) .accumulator (.mwait (fld w 7 4))
  | 1, 0 => need (fldN w 20 5 == 0) .reserved (.qrv (rdF w) (rs1F w))
  | 1, 1 => need (fldN w 20 5 == 0) .reserved (.qrvf (rdF w) (rs1F w))
  | 1, 2 => .ok (.qrx (rdF w) (rs1F w) (rs2F w))
  | 1, 3 => need (fldN w 20 5 == 0 && fldN w 15 5 == 0 && fldN w 7 5 == 0) .reserved .qrnext
  | 1, 4 => need (fldN w 20 5 == 0 && fldN w 7 5 == 0) .reserved (.qrskip (rs1F w))
  | 1, 5 => need (fldN w 7 5 == 0) .reserved (.qrtld (rs1F w) (rs2F w))
  | 1, 6 => need (fldN w 20 5 == 0 && fldN w 15 5 == 0) .reserved (.pipv (rdF w))
  | _, _ => .error .funct7

/-- The fields of a VR word: es, vs2, vs1, pg (R130). -/
def esN (w : IWord) : Nat := fldN w 24 2
def vs2F (w : IWord) : Reg := fld w 19 5
def vs1F (w : IWord) : Reg := fld w 14 5
def pgF (w : IWord) : Pg := fld w 12 2
def pdF (w : IWord) : PReg := fld w 7 3

/-- A VR word with an FP element type (class F, R131). -/
def withFp (w : IWord) (ok : Bool) (f : FpTy → Instr) : Except Reject Instr :=
  match decodeFp (esN w) with
  | some t => need ok .reserved (f t)
  | none => .error .elementType

/-- The vs2 field is unused, hence zero. -/
def noVs2 (w : IWord) : Bool := fldN w 19 5 == 0
/-- The vd field names a predicate. -/
def pdOk (w : IWord) : Bool := fldN w 10 2 == 0
/-- The vs1 field names a predicate. -/
def ps1Ok (w : IWord) : Bool := fldN w 17 2 == 0
/-- The vs2 field names a predicate or a format register. -/
def ps2Ok (w : IWord) : Bool := fldN w 22 2 == 0
def noPg (w : IWord) : Bool := fldN w 12 2 == 0

/-- PLOGIC by its class L operation (R131, R208). -/
def decodePlogic (w : IWord) : Instr :=
  match esN w with
  | 0 => .plogicAnd (pdF w) (fld w 14 3) (fld w 19 3)
  | 1 => .plogicOr (pdF w) (fld w 14 3) (fld w 19 3)
  | 2 => .plogicXor (pdF w) (fld w 14 3) (fld w 19 3)
  | _ => .plogicAndn (pdF w) (fld w 14 3) (fld w 19 3)

/-- VFCVT with its two types (R131, R132). -/
def decodeVfcvt (w : IWord) : Except Reject Instr :=
  match decodeFp (esN w), decodeSrc (fldN w 19 5) with
  | some d, some s => if s = d.asSrc then .error .typeCode else .ok (.vfcvt d s (rdF w) (vs1F w) (pgF w))
  | _, _ => .error .typeCode

/-- The VR form (R130-R132). -/
def decodeVr (w : IWord) : Except Reject Instr :=
  let d := rdF w
  let a := vs1F w
  let b := vs2F w
  let g := pgF w
  let it := decodeInt (esN w)
  match fldN w 26 6 with
  | 0x00 => withFp w true fun t => .vfadd t d a b g
  | 0x01 => withFp w true fun t => .vfsub t d a b g
  | 0x02 => withFp w true fun t => .vfmul t d a b g
  | 0x03 => withFp w true fun t => .vfma t d a b g
  | 0x04 => withFp w true fun t => .vfnms t d a b g
  | 0x05 => withFp w true fun t => .vfmin t d a b g
  | 0x06 => withFp w true fun t => .vfmax t d a b g
  | 0x07 => withFp w (noVs2 w) fun t => .vfabs t d a g
  | 0x08 => withFp w (noVs2 w) fun t => .vfneg t d a g
  | 0x09 => withFp w (pdOk w) fun t => .vfceq t (pdF w) a b g
  | 0x0A => withFp w (pdOk w) fun t => .vfclt t (pdF w) a b g
  | 0x0B => withFp w (pdOk w) fun t => .vfcle t (pdF w) a b g
  | 0x0C => withFp w (noVs2 w) fun t => .vfsumr t d a g
  | 0x0D => withFp w (noVs2 w) fun t => .vfmaxr t d a g
  | 0x0E => decodeVfcvt w
  | 0x0F => withFp w true fun t => .vfcpys t d a b g
  | 0x10 => withFp w (noVs2 w) fun t => .vfrcp t d a g
  | 0x11 => withFp w (noVs2 w) fun t => .vfrsq t d a g
  | 0x12 => withFp w (noVs2 w) fun t => .vfsqrt t d a g
  | 0x13 => withFp w true fun t => .vfdiv t d a b g
  | 0x14 => withFp w (noVs2 w) fun t => .vfexp2 t d a g
  | 0x15 => withFp w (noVs2 w) fun t => .vflog2 t d a g
  | 0x16 => withFp w (noVs2 w) fun t => .vftanh t d a g
  | 0x18 => need (ps2Ok w && esN w == 0) .formatField (.vcvtn d a (fld w 19 3) g)
  | 0x19 => need (ps2Ok w && esN w == 0) .formatField (.vcvtw d a (fld w 19 3) g)
  | 0x1A => need (esN w == 0) .elementType (.vscale d a b g)
  | 0x1B => need (ps2Ok w && esN w == 0) .formatField (.vbmax d a (fld w 19 3) g)
  | 0x20 => .ok (.vadd it d a b g)
  | 0x21 => .ok (.vsub it d a b g)
  | 0x22 => .ok (.vmul it d a b g)
  | 0x23 => .ok (.vmulh it d a b g)
  | 0x24 => .ok (.vand it d a b g)
  | 0x25 => .ok (.vor it d a b g)
  | 0x26 => .ok (.vxor it d a b g)
  | 0x27 => .ok (.vsll it d a b g)
  | 0x28 => .ok (.vsrl it d a b g)
  | 0x29 => .ok (.vsra it d a b g)
  | 0x2A => .ok (.vmin it d a b g)
  | 0x2B => .ok (.vmax it d a b g)
  | 0x2C => .ok (.vminu it d a b g)
  | 0x2D => .ok (.vmaxu it d a b g)
  | 0x2E => need (pdOk w) .predicateField (.viceq it (pdF w) a b g)
  | 0x2F => need (pdOk w) .predicateField (.viclt it (pdF w) a b g)
  | 0x30 => need (pdOk w) .predicateField (.vicltu it (pdF w) a b g)
  | 0x31 => need (esN w == 0) .elementType (.vsel d a b g)
  | 0x32 => .ok (.vperm it d a b g)
  | 0x33 => .ok (.vslup it d b a g)
  | 0x34 => .ok (.vsldn it d b a g)
  | 0x35 => .ok (.vzip it d a b g)
  | 0x36 => .ok (.vunzip it d a b g)
  | 0x37 => need (noVs2 w && fldN w 14 5 == 0) .reserved (.viota it d g)
  | 0x38 => need (noVs2 w) .reserved (.vdupx it d a g)
  | 0x39 => need (noPg w) .reserved (.vmvxs it d b a)
  | 0x3A => need (noVs2 w) .reserved (.visumr it d a g)
  | 0x3B => need (noPg w && pdOk w) .predicateField (.pwhilelt it (pdF w) a b)
  | 0x3C => need (noPg w && pdOk w && ps1Ok w && ps2Ok w) .predicateField (decodePlogic w)
  | 0x3D => need (noPg w && noVs2 w && ps1Ok w) .predicateField (.pcnt it d (fld w 14 3))
  | 0x3E => need (noPg w && pdOk w && noVs2 w && ps1Ok w) .predicateField (.pfirst it (pdF w) (fld w 14 3))
  | _ => .error .vop6

/-- The VI form (R133). -/
def decodeViForm (w : IWord) : Except Reject Instr :=
  let es := decodeVi (fldN w 14 2)
  let d := rdF w
  let c : BitVec 16 := fld w 16 16
  match fldN w 12 2 with
  | 0 => .ok (.vli es d c)
  | 1 => need (es != .fp8) .elementType (.vaddi es d c)
  | 2 => need (es != .fp8) .elementType (.vmuli es d c)
  | _ => need (es != .fp8) .elementType (.vmaxi es d c)

/-- The decoder: what instruction a word is, or why it is none (R122-R133). -/
def decode (w : IWord) : Except Reject Instr :=
  match fldN w 0 7 with
  | 0x03 => decodeLoad w
  | 0x0B => decodeCustom0 w
  | 0x0F => decodeMiscMem w
  | 0x13 => decodeOpImm w
  | 0x17 => .ok (.auipc (rdF w) (fld w 12 20))
  | 0x1B => decodeOpImm32 w
  | 0x23 => decodeStore w
  | 0x2B => decodeCustom1 w
  | 0x33 => decodeOp w
  | 0x37 => .ok (.lui (rdF w) (fld w 12 20))
  | 0x3B => decodeOp32 w
  | 0x5B => decodeVr w
  | 0x63 => decodeBranch w
  | 0x67 => if fldN w 12 3 = 0 then .ok (.jalr (rdF w) (rs1F w) (immI w)) else .error .funct3
  | 0x6F => .ok (.jal (rdF w) (immJ w))
  | 0x73 => decodeSystem w
  | 0x7B => decodeViForm w
  | n => if n % 4 = 3 then .error .opcode else .error .lowBits

/-- The word of four bytes, little-endian, the first at the lowest address (R122). -/
def wordOfBytes : List Byte → IWord
  | b0 :: b1 :: b2 :: b3 :: _ =>
    BitVec.ofNat 32 (b0.toNat + b1.toNat * 2 ^ 8 + b2.toNat * 2 ^ 16 + b3.toNat * 2 ^ 24)
  | _ => 0

/-- The bytes of a word in memory, little-endian (R122). -/
def bytesOfWord (w : IWord) : List Byte :=
  [fld w 0 8, fld w 8 8, fld w 16 8, fld w 24 8]

/-- The word the opcode table's bits stand for: every instruction is one 32-bit word (R122), bits above nbits zero. -/
def tableWord (nbits w : Nat) : IWord := BitVec.ofNat 32 (w % 2 ^ nbits)

/-- What the decoder reads from the bytes of a table word. -/
def decodeTableWord (nbits w : Nat) : Option Instr :=
  match decode (wordOfBytes (bytesOfWord (tableWord nbits w))) with
  | .ok i => some i
  | .error _ => none

/-! The encoder, from the same tables. An event has no word: it is given the all-zero word, which is no instruction. -/

/-- R format (R123). -/
def encR (op f3 f7 : Nat) (rd rs1 rs2 : Reg) : IWord :=
  BitVec.ofNat 32 (op + rd.toNat * 2 ^ 7 + f3 * 2 ^ 12 + rs1.toNat * 2 ^ 15 + rs2.toNat * 2 ^ 20 + f7 * 2 ^ 25)

/-- I format (R123). -/
def encI (op f3 : Nat) (rd rs1 : Reg) (imm : BitVec 12) : IWord :=
  BitVec.ofNat 32 (op + rd.toNat * 2 ^ 7 + f3 * 2 ^ 12 + rs1.toNat * 2 ^ 15 + imm.toNat * 2 ^ 20)

/-- S format (R123). -/
def encS (op f3 : Nat) (rs2 rs1 : Reg) (imm : BitVec 12) : IWord :=
  BitVec.ofNat 32 (op + imm.toNat % 32 * 2 ^ 7 + f3 * 2 ^ 12 + rs1.toNat * 2 ^ 15 + rs2.toNat * 2 ^ 20 +
    imm.toNat / 32 * 2 ^ 25)

/-- B format, from bits [12:1] of the immediate (R123). -/
def encB (op f3 : Nat) (rs1 rs2 : Reg) (imm : BitVec 12) : IWord :=
  BitVec.ofNat 32 (op + imm.toNat / 1024 % 2 * 2 ^ 7 + imm.toNat % 16 * 2 ^ 8 + f3 * 2 ^ 12 + rs1.toNat * 2 ^ 15 +
    rs2.toNat * 2 ^ 20 + imm.toNat / 16 % 64 * 2 ^ 25 + imm.toNat / 2048 * 2 ^ 31)

/-- U format (R123). -/
def encU (op : Nat) (rd : Reg) (imm : BitVec 20) : IWord :=
  BitVec.ofNat 32 (op + rd.toNat * 2 ^ 7 + imm.toNat * 2 ^ 12)

/-- J format, from bits [20:1] of the immediate (R123). -/
def encJ (op : Nat) (rd : Reg) (imm : BitVec 20) : IWord :=
  BitVec.ofNat 32 (op + rd.toNat * 2 ^ 7 + imm.toNat / 2048 % 256 * 2 ^ 12 + imm.toNat / 1024 % 2 * 2 ^ 20 +
    imm.toNat % 1024 * 2 ^ 21 + imm.toNat / 524288 * 2 ^ 31)

/-- A shift by an immediate: bits [31:26] hold `top`, bits [25:20] the amount (R161). -/
def encSh (op f3 top : Nat) (rd rs1 : Reg) (sh : BitVec 6) : IWord :=
  BitVec.ofNat 32 (op + rd.toNat * 2 ^ 7 + f3 * 2 ^ 12 + rs1.toNat * 2 ^ 15 + sh.toNat * 2 ^ 20 + top * 2 ^ 26)

/-- VM form (R128). -/
def encVm (vmop : Nat) (vd rs1 rs2 : Reg) (pg : Pg) : IWord :=
  BitVec.ofNat 32 (0x0B + vd.toNat * 2 ^ 7 + 7 * 2 ^ 12 + rs1.toNat * 2 ^ 15 + rs2.toNat * 2 ^ 20 + pg.toNat * 2 ^ 26 +
    vmop * 2 ^ 28)

/-- VR form from its fields (R130). -/
def encVr (vop6 es : Nat) (vd vs1 vs2 : Nat) (pg : Nat) : IWord :=
  BitVec.ofNat 32 (0x5B + vd * 2 ^ 7 + pg * 2 ^ 12 + vs1 * 2 ^ 14 + vs2 * 2 ^ 19 + es * 2 ^ 24 + vop6 * 2 ^ 26)

/-- VI form (R133). -/
def encVi (iop es : Nat) (vd : Reg) (imm : BitVec 16) : IWord :=
  BitVec.ofNat 32 (0x7B + vd.toNat * 2 ^ 7 + iop * 2 ^ 12 + es * 2 ^ 14 + imm.toNat * 2 ^ 16)

/-- M-space words whose register fields are given as numbers (R129). -/
def encM (f3 f7 rd rs1 rs2 : Nat) : IWord :=
  BitVec.ofNat 32 (0x2B + rd * 2 ^ 7 + f3 * 2 ^ 12 + rs1 * 2 ^ 15 + rs2 * 2 ^ 20 + f7 * 2 ^ 25)

def FpTy.code : FpTy → Nat
  | .f32 => 0 | .bf16 => 1 | .f16 => 2
def IntTy.code : IntTy → Nat
  | .i8 => 0 | .i16 => 1 | .i32 => 2 | .i64 => 3
def ViTy.code : ViTy → Nat
  | .f32 => 0 | .bf16 => 1 | .f16 => 2 | .fp8 => 3
def SrcTy.code : SrcTy → Nat
  | .f32 => 0 | .bf16 => 1 | .f16 => 2 | .i32 => 3 | .i64 => 4

/-- The word of a base instruction (R161-R176), if the instruction is one. -/
def encodeBase : Instr → Option IWord
  | .lui rd i => some (encU 0x37 rd i)
  | .auipc rd i => some (encU 0x17 rd i)
  | .jal rd i => some (encJ 0x6F rd i)
  | .jalr rd a i => some (encI 0x67 0 rd a i)
  | .beq a b i => some (encB 0x63 0 a b i)
  | .bne a b i => some (encB 0x63 1 a b i)
  | .blt a b i => some (encB 0x63 4 a b i)
  | .bge a b i => some (encB 0x63 5 a b i)
  | .bltu a b i => some (encB 0x63 6 a b i)
  | .bgeu a b i => some (encB 0x63 7 a b i)
  | .lb rd a i => some (encI 0x03 0 rd a i)
  | .lh rd a i => some (encI 0x03 1 rd a i)
  | .lw rd a i => some (encI 0x03 2 rd a i)
  | .ld rd a i => some (encI 0x03 3 rd a i)
  | .lbu rd a i => some (encI 0x03 4 rd a i)
  | .lhu rd a i => some (encI 0x03 5 rd a i)
  | .lwu rd a i => some (encI 0x03 6 rd a i)
  | .sb b a i => some (encS 0x23 0 b a i)
  | .sh b a i => some (encS 0x23 1 b a i)
  | .sw b a i => some (encS 0x23 2 b a i)
  | .sd b a i => some (encS 0x23 3 b a i)
  | .addi rd a i => some (encI 0x13 0 rd a i)
  | .slti rd a i => some (encI 0x13 2 rd a i)
  | .sltiu rd a i => some (encI 0x13 3 rd a i)
  | .xori rd a i => some (encI 0x13 4 rd a i)
  | .ori rd a i => some (encI 0x13 6 rd a i)
  | .andi rd a i => some (encI 0x13 7 rd a i)
  | .slli rd a s => some (encSh 0x13 1 0 rd a s)
  | .srli rd a s => some (encSh 0x13 5 0 rd a s)
  | .srai rd a s => some (encSh 0x13 5 16 rd a s)
  | .addiw rd a i => some (encI 0x1B 0 rd a i)
  | .slliw rd a s => some (encR 0x1B 1 0 rd a s)
  | .srliw rd a s => some (encR 0x1B 5 0 rd a s)
  | .sraiw rd a s => some (encR 0x1B 5 32 rd a s)
  | .add rd a b => some (encR 0x33 0 0 rd a b)
  | .sub rd a b => some (encR 0x33 0 32 rd a b)
  | .sll rd a b => some (encR 0x33 1 0 rd a b)
  | .slt rd a b => some (encR 0x33 2 0 rd a b)
  | .sltu rd a b => some (encR 0x33 3 0 rd a b)
  | .xor rd a b => some (encR 0x33 4 0 rd a b)
  | .srl rd a b => some (encR 0x33 5 0 rd a b)
  | .sra rd a b => some (encR 0x33 5 32 rd a b)
  | .or rd a b => some (encR 0x33 6 0 rd a b)
  | .and rd a b => some (encR 0x33 7 0 rd a b)
  | .addw rd a b => some (encR 0x3B 0 0 rd a b)
  | .subw rd a b => some (encR 0x3B 0 32 rd a b)
  | .sllw rd a b => some (encR 0x3B 1 0 rd a b)
  | .srlw rd a b => some (encR 0x3B 5 0 rd a b)
  | .sraw rd a b => some (encR 0x3B 5 32 rd a b)
  | .mul rd a b => some (encR 0x33 0 1 rd a b)
  | .mulh rd a b => some (encR 0x33 1 1 rd a b)
  | .mulhsu rd a b => some (encR 0x33 2 1 rd a b)
  | .mulhu rd a b => some (encR 0x33 3 1 rd a b)
  | .div rd a b => some (encR 0x33 4 1 rd a b)
  | .divu rd a b => some (encR 0x33 5 1 rd a b)
  | .rem rd a b => some (encR 0x33 6 1 rd a b)
  | .remu rd a b => some (encR 0x33 7 1 rd a b)
  | .mulw rd a b => some (encR 0x3B 0 1 rd a b)
  | .divw rd a b => some (encR 0x3B 4 1 rd a b)
  | .divuw rd a b => some (encR 0x3B 5 1 rd a b)
  | .remw rd a b => some (encR 0x3B 6 1 rd a b)
  | .remuw rd a b => some (encR 0x3B 7 1 rd a b)
  | .fence fm p s => some (BitVec.ofNat 32 (0x0F + s.toNat * 2 ^ 20 + p.toNat * 2 ^ 24 + fm.toNat * 2 ^ 28))
  | .fenceI => some 0x0000100F#32
  | .ecall => some 0x00000073#32
  | .ebreak => some 0x00100073#32
  | .csrrw rd c a => some (encI 0x73 1 rd a c)
  | .csrrs rd c a => some (encI 0x73 2 rd a c)
  | .csrrc rd c a => some (encI 0x73 3 rd a c)
  | .csrrwi rd c u => some (encI 0x73 5 rd u c)
  | .csrrsi rd c u => some (encI 0x73 6 rd u c)
  | .csrrci rd c u => some (encI 0x73 7 rd u c)
  | .illegalInstruction w => some w
  | _ => none

/-- The word of an S-space instruction outside the VM form (R127), if the instruction is one. -/
def encodeS : Instr → Option IWord
  | .sync rd a => some (encR 0x0B 0 0 rd a 0)
  | .exit => some (encR 0x0B 0 1 0 0 0)
  | .trig => some (encR 0x0B 0 2 0 0 0)
  | .launch a => some (encR 0x0B 0 3 0 a 0)
  | .abortreq a => some (encR 0x0B 0 4 0 a 0)
  | .hret a => some (encR 0x0B 0 32 0 a 0)
  | .cpget rd a => some (encR 0x0B 1 0 rd a 0)
  | .cpput rd a => some (encR 0x0B 1 1 rd a 0)
  | .cppeer rd a => some (encR 0x0B 1 2 rd a 0)
  | .cpwait a => some (encR 0x0B 1 3 0 a 0)
  | .cptest rd a => some (encR 0x0B 1 4 rd a 0)
  | .flist a => some (encR 0x0B 1 5 0 a 0)
  | .give a b => some (encR 0x0B 1 6 0 a b)
  | .raddw b a => some (encR 0x0B 2 0 0 a b)
  | .raddd b a => some (encR 0x0B 2 1 0 a b)
  | .rfadds b a => some (encR 0x0B 2 2 0 a b)
  | .rmind b a => some (encR 0x0B 2 3 0 a b)
  | .rmaxd b a => some (encR 0x0B 2 4 0 a b)
  | .rord b a => some (encR 0x0B 2 5 0 a b)
  | .randd b a => some (encR 0x0B 2 6 0 a b)
  | .rxord b a => some (encR 0x0B 2 7 0 a b)
  | .send a b => some (encR 0x0B 2 8 0 a b)
  | .redadd b a => some (encR 0x0B 2 9 0 a b)
  | .gfaa rd b a => some (encR 0x0B 2 10 rd a b)
  | .gredAddd a b => some (encR 0x0B 3 0 0 a b)
  | .gredMind a b => some (encR 0x0B 3 1 0 a b)
  | .gredMaxd a b => some (encR 0x0B 3 2 0 a b)
  | .gredAndd a b => some (encR 0x0B 3 3 0 a b)
  | .gredOrd a b => some (encR 0x0B 3 4 0 a b)
  | .gredXord a b => some (encR 0x0B 3 5 0 a b)
  | .gredFadds a b => some (encR 0x0B 3 6 0 a b)
  | .gredFmins a b => some (encR 0x0B 3 7 0 a b)
  | .gredFmaxs a b => some (encR 0x0B 3 8 0 a b)
  | .gresAddd rd a => some (encR 0x0B 3 16 rd a 0)
  | .gresMind rd a => some (encR 0x0B 3 16 rd a 1)
  | .gresMaxd rd a => some (encR 0x0B 3 16 rd a 2)
  | .gresAndd rd a => some (encR 0x0B 3 16 rd a 3)
  | .gresOrd rd a => some (encR 0x0B 3 16 rd a 4)
  | .gresXord rd a => some (encR 0x0B 3 16 rd a 5)
  | .gresFadds rd a => some (encR 0x0B 3 16 rd a 6)
  | .gresFmins rd a => some (encR 0x0B 3 16 rd a 7)
  | .gresFmaxs rd a => some (encR 0x0B 3 16 rd a 8)
  | .bst a b => some (encR 0x0B 3 32 0 a b)
  | .bld rd a => some (encR 0x0B 3 33 rd a 0)
  | .tlook rd a => some (encR 0x0B 4 0 rd a 0)
  | .tins a b => some (encR 0x0B 4 1 0 a b)
  | .tdel a => some (encR 0x0B 4 2 0 a 0)
  | .tclr => some (encR 0x0B 4 3 0 0 0)
  | .rep n m t => some (BitVec.ofNat 32 (0x0B + 5 * 2 ^ 12 + t.toNat * 2 ^ 20 + m.toNat * 2 ^ 23 + n.toNat * 2 ^ 26))
  | .stall n => some (encI 0x0B 6 0 0 n)
  | _ => none

/-- The word of a VM, VR or VI instruction (R128-R133), if the instruction is one. -/
def encodeV : Instr → Option IWord
  | .vld d a g => some (encVm 0 d a 0 g)
  | .vldpi d a g => some (encVm 1 d a 0 g)
  | .vst d a g => some (encVm 2 d a 0 g)
  | .vstpi d a g => some (encVm 3 d a 0 g)
  | .vlds d a b g => some (encVm 4 d a b g)
  | .vsts d a b g => some (encVm 5 d a b g)
  | .vgath d a b g => some (encVm 6 d a b g)
  | .vscat d a b g => some (encVm 7 d a b g)
  | .pldr p a => some (encVm 8 (p.setWidth 5) a 0 0)
  | .pstr p a => some (encVm 9 (p.setWidth 5) a 0 0)
  | .vfadd t d a b g => some (encVr 0x00 t.code d.toNat a.toNat b.toNat g.toNat)
  | .vfsub t d a b g => some (encVr 0x01 t.code d.toNat a.toNat b.toNat g.toNat)
  | .vfmul t d a b g => some (encVr 0x02 t.code d.toNat a.toNat b.toNat g.toNat)
  | .vfma t d a b g => some (encVr 0x03 t.code d.toNat a.toNat b.toNat g.toNat)
  | .vfnms t d a b g => some (encVr 0x04 t.code d.toNat a.toNat b.toNat g.toNat)
  | .vfmin t d a b g => some (encVr 0x05 t.code d.toNat a.toNat b.toNat g.toNat)
  | .vfmax t d a b g => some (encVr 0x06 t.code d.toNat a.toNat b.toNat g.toNat)
  | .vfabs t d a g => some (encVr 0x07 t.code d.toNat a.toNat 0 g.toNat)
  | .vfneg t d a g => some (encVr 0x08 t.code d.toNat a.toNat 0 g.toNat)
  | .vfceq t p a b g => some (encVr 0x09 t.code p.toNat a.toNat b.toNat g.toNat)
  | .vfclt t p a b g => some (encVr 0x0A t.code p.toNat a.toNat b.toNat g.toNat)
  | .vfcle t p a b g => some (encVr 0x0B t.code p.toNat a.toNat b.toNat g.toNat)
  | .vfsumr t d a g => some (encVr 0x0C t.code d.toNat a.toNat 0 g.toNat)
  | .vfmaxr t d a g => some (encVr 0x0D t.code d.toNat a.toNat 0 g.toNat)
  | .vfcvt t s d a g => some (encVr 0x0E t.code d.toNat a.toNat s.code g.toNat)
  | .vfcpys t d a b g => some (encVr 0x0F t.code d.toNat a.toNat b.toNat g.toNat)
  | .vfrcp t d a g => some (encVr 0x10 t.code d.toNat a.toNat 0 g.toNat)
  | .vfrsq t d a g => some (encVr 0x11 t.code d.toNat a.toNat 0 g.toNat)
  | .vfsqrt t d a g => some (encVr 0x12 t.code d.toNat a.toNat 0 g.toNat)
  | .vfdiv t d a b g => some (encVr 0x13 t.code d.toNat a.toNat b.toNat g.toNat)
  | .vfexp2 t d a g => some (encVr 0x14 t.code d.toNat a.toNat 0 g.toNat)
  | .vflog2 t d a g => some (encVr 0x15 t.code d.toNat a.toNat 0 g.toNat)
  | .vftanh t d a g => some (encVr 0x16 t.code d.toNat a.toNat 0 g.toNat)
  | .vcvtn d a f g => some (encVr 0x18 0 d.toNat a.toNat f.toNat g.toNat)
  | .vcvtw d a f g => some (encVr 0x19 0 d.toNat a.toNat f.toNat g.toNat)
  | .vscale d a b g => some (encVr 0x1A 0 d.toNat a.toNat b.toNat g.toNat)
  | .vbmax d a f g => some (encVr 0x1B 0 d.toNat a.toNat f.toNat g.toNat)
  | .vadd t d a b g => some (encVr 0x20 t.code d.toNat a.toNat b.toNat g.toNat)
  | .vsub t d a b g => some (encVr 0x21 t.code d.toNat a.toNat b.toNat g.toNat)
  | .vmul t d a b g => some (encVr 0x22 t.code d.toNat a.toNat b.toNat g.toNat)
  | .vmulh t d a b g => some (encVr 0x23 t.code d.toNat a.toNat b.toNat g.toNat)
  | .vand t d a b g => some (encVr 0x24 t.code d.toNat a.toNat b.toNat g.toNat)
  | .vor t d a b g => some (encVr 0x25 t.code d.toNat a.toNat b.toNat g.toNat)
  | .vxor t d a b g => some (encVr 0x26 t.code d.toNat a.toNat b.toNat g.toNat)
  | .vsll t d a b g => some (encVr 0x27 t.code d.toNat a.toNat b.toNat g.toNat)
  | .vsrl t d a b g => some (encVr 0x28 t.code d.toNat a.toNat b.toNat g.toNat)
  | .vsra t d a b g => some (encVr 0x29 t.code d.toNat a.toNat b.toNat g.toNat)
  | .vmin t d a b g => some (encVr 0x2A t.code d.toNat a.toNat b.toNat g.toNat)
  | .vmax t d a b g => some (encVr 0x2B t.code d.toNat a.toNat b.toNat g.toNat)
  | .vminu t d a b g => some (encVr 0x2C t.code d.toNat a.toNat b.toNat g.toNat)
  | .vmaxu t d a b g => some (encVr 0x2D t.code d.toNat a.toNat b.toNat g.toNat)
  | .viceq t p a b g => some (encVr 0x2E t.code p.toNat a.toNat b.toNat g.toNat)
  | .viclt t p a b g => some (encVr 0x2F t.code p.toNat a.toNat b.toNat g.toNat)
  | .vicltu t p a b g => some (encVr 0x30 t.code p.toNat a.toNat b.toNat g.toNat)
  | .vsel d a b g => some (encVr 0x31 0 d.toNat a.toNat b.toNat g.toNat)
  | .vperm t d a b g => some (encVr 0x32 t.code d.toNat a.toNat b.toNat g.toNat)
  | .vslup t d b a g => some (encVr 0x33 t.code d.toNat a.toNat b.toNat g.toNat)
  | .vsldn t d b a g => some (encVr 0x34 t.code d.toNat a.toNat b.toNat g.toNat)
  | .vzip t d a b g => some (encVr 0x35 t.code d.toNat a.toNat b.toNat g.toNat)
  | .vunzip t d a b g => some (encVr 0x36 t.code d.toNat a.toNat b.toNat g.toNat)
  | .viota t d g => some (encVr 0x37 t.code d.toNat 0 0 g.toNat)
  | .vdupx t d a g => some (encVr 0x38 t.code d.toNat a.toNat 0 g.toNat)
  | .vmvxs t d b a => some (encVr 0x39 t.code d.toNat a.toNat b.toNat 0)
  | .visumr t d a g => some (encVr 0x3A t.code d.toNat a.toNat 0 g.toNat)
  | .pwhilelt t p a b => some (encVr 0x3B t.code p.toNat a.toNat b.toNat 0)
  | .plogicAnd p a b => some (encVr 0x3C 0 p.toNat a.toNat b.toNat 0)
  | .plogicOr p a b => some (encVr 0x3C 1 p.toNat a.toNat b.toNat 0)
  | .plogicXor p a b => some (encVr 0x3C 2 p.toNat a.toNat b.toNat 0)
  | .plogicAndn p a b => some (encVr 0x3C 3 p.toNat a.toNat b.toNat 0)
  | .pcnt t d p => some (encVr 0x3D t.code d.toNat p.toNat 0 0)
  | .pfirst t p q => some (encVr 0x3E t.code p.toNat q.toNat 0 0)
  | .vli t d c => some (encVi 0 t.code d c)
  | .vaddi t d c => some (encVi 1 t.code d c)
  | .vmuli t d c => some (encVi 2 t.code d c)
  | .vmaxi t d c => some (encVi 3 t.code d c)
  | _ => none

/-- The word of an M-space instruction (R129), if the instruction is one. -/
def encodeM : Instr → Option IWord
  | .mzero m => some (encM 0 0 m.toNat 0 0)
  | .mma m a b => some (encM 0 1 m.toNat a.toNat b.toNat)
  | .mmas m a b => some (encM 0 2 m.toNat a.toNat b.toNat)
  | .mmav m v b => some (encM 0 3 m.toNat v.toNat b.toNat)
  | .mrd d m a => some (encM 0 4 d.toNat a.toNat m.toNat)
  | .mwr m v a => some (encM 0 5 m.toNat a.toNat v.toNat)
  | .mst m a => some (encM 0 6 0 a.toNat m.toNat)
  | .mwait m => some (encM 0 7 m.toNat 0 0)
  | .qrv d a => some (encM 1 0 d.toNat a.toNat 0)
  | .qrvf d a => some (encM 1 1 d.toNat a.toNat 0)
  | .qrx d a b => some (encM 1 2 d.toNat a.toNat b.toNat)
  | .qrnext => some (encM 1 3 0 0 0)
  | .qrskip a => some (encM 1 4 0 a.toNat 0)
  | .qrtld a b => some (encM 1 5 0 a.toNat b.toNat)
  | .pipv d => some (encM 1 6 d.toNat 0 0)
  | _ => none

/-- The word of an instruction; none for an event. -/
def encode (i : Instr) : Option IWord :=
  (encodeBase i).orElse fun _ => (encodeS i).orElse fun _ => (encodeV i).orElse fun _ => encodeM i

end Sys2Proof
end

