-- ==== Sys2Proof/Config.lean ====
section
/-!
DEFINITION. What the manual leaves to the implementation or leaves open: free values, which have no body, so that no
proof can rest on what they are. Each is applied to the operands it depends on or to the counter `State.free`.
-/

namespace Sys2Proof.Config

/-- A source register read below its latency in STALLCHK mode 0: its value before P or P's result (R149). Log entry 3. -/
opaque stallOld : Nat → Bool
/-- CYCLE (R137): cycles are implementation timing (R146). Log entry 4. -/
opaque cycle : Nat → Word
/-- Time since bring-up in whole µs in an event record (R365). Log entry 4. -/
opaque time : Nat → Word
/-- Elapsed time in whole µs in a completion record (R362). Log entry 4. -/
opaque elapsed : Nat → BitVec 32
/-- PWRNOW, average package power (R375). Log entry 4. -/
opaque pwrnow : Nat → BitVec 32
/-- A line that host writes changed, read on another package before the notices: which of the recorded old lines the reader
holds in its die cache, or none (R79); the line's address and the counter. Log entry 5. -/
opaque staleLine : Nat → Nat → Nat
/-- A read of a line homed on another package hits in the local die cache and crosses no fabric (R69, R340): the line's
address and the counter. Log entry 53. -/
opaque dieHit : Nat → Nat → Bool
/-- The port of the destination at which a path of the table ends (R335, R338): the destination, the path. The manual names the
ports of the switches on the way, and not that one. Log entry 54. -/
opaque lastPort : Nat → BitVec 64 → Nat
/-- The magnitude bits of an SFU function whose rounding a 640-bit bracket does not decide (R120): function code,
operand code. Log entry 6. -/
opaque sfuUndecided : Nat → Nat → Nat → Nat → Bool
/-- The identity public key that the key store derives at a boot from the fused secret and the image's measurement (R370): the
byte at an offset of the key of a package with that measurement. Log entry 7. -/
opaque identityKey : Nat → BitVec 512 → Nat → Byte
/-- The ML-DSA-65 signature of a package's identity key over a report (R370): the byte at an offset. Log entry 7. -/
opaque signature : Nat → BitVec 512 → List Byte → Nat → Byte
/-- The decision to hit or miss the spare reserved storage of a partner (R351): whether the storage can hold a set of
this many dirty bytes. Log entry 8. -/
opaque ckptRoom : Nat → Bool

/-- The size in bytes of a part of the drain image whose layout the manual does not give (R378): the part's number and the
counter. Log entry 62. -/
opaque drainSize : Nat → Nat → Nat
/-- The trailer of the drain image, a SHAKE256 value over parts whose layout the manual does not give (R378): the counter.
Log entry 62. -/
opaque drainTrailer : Nat → BitVec 512

/-- The failure code of a bring-up step (R359, R368): the manual gives the codes no values; what is used of this value keeps a
code from being 0. Log entry 14. -/
opaque failCode : Nat → BitVec 8

end Sys2Proof.Config
end

