-- ==== Sys2Proof/Machine/State.lean ====
section
/-!
DEFINITION. The state of the machine: everything the manual gives the packages of one star, as plain data.
Tables are association lists; a key that a table does not list has the default the reader names.
-/

namespace Sys2Proof.Machine

open Sys2Proof

/-- An association list. -/
abbrev Tab (K V : Type) := List (K × V)

/-- Sparse memory: cells with strictly rising addresses and no zero byte; an unlisted address reads 0 (log entry 1). -/
abbrev Memory := List Host.Cell

/-- The register files that distances are kept for, in the order of R157. -/
inductive File where
  | x | v | p
deriving DecidableEq, Repr

/-- A register of a file. -/
structure RegId where
  file : File
  num : Nat
deriving DecidableEq, Repr

/-- A bank of architectural state of a thread slot: what the retained bank holds (R302) and PIPDRAWPREV (R106).
PIPKEY is computed from the launch's seed and the task's number (R105) and has no place of its own. -/
structure Bank where
  x : Vector Word 32
  v : Vector Vec 32
  p : Vector Pred 8
  pc : Word
  tflags : BitVec 5
  rmode : BitVec 3
  trapen : BitVec 5
  stallchk : BitVec 2
  repRemain : BitVec 7
  repIter : BitVec 6
  fmt : Vector (BitVec 32) 8
  qidx : Word
  qdim : BitVec 8
  qseed : BitVec 32
  qmode : BitVec 2
  qstep : Word
  qdraw : Word
  qdrawprev : Word
  pipctr : Word
  pipdraw : Word
  pipdrawprev : Word
  seq : Word
  /-- The tag-table partition, in order of insertion (R252). -/
  tags : List (Word × BitVec 63)
deriving DecidableEq, Repr

/-- What a class A trap captured (R290, R294): HCAUSE, the trapping pc, HTVAL and HSTATUS. HTILE and HTASK are the slot's
own place; HPC as it now stands is the pc of the frozen bank, which the window shows too (R294, R295; log entry 13). -/
structure TrapRec where
  cause : BitVec 8
  pc : Word
  tval : Word
  inrep : Bool
  /-- The comparator that matched, if one did. -/
  cmp : Option (BitVec 2)
  alt : Bool
  det : Bool
  rerun : Bool
  serial : Bool
  /-- The trap has been handed to a handler slot or to the control processor. -/
  delivered : Bool
deriving DecidableEq, Repr

/-- Where a slot stands (R12, R24, R227, R228, R290, R297). -/
inductive TaskStatus where
  | running
  | atSync (rd : Reg) (flags : BitVec 3)
  | atExit
  | frozen (t : TrapRec)
  | escalated (t : TrapRec)
  | killed
  | retired
deriving DecidableEq, Repr

/-- A result below its fixed latency (R146, R147): the register, L, the distance so far and the value before P. -/
structure Haz where
  reg : RegId
  lat : Nat
  dist : Nat
  old : Vec
deriving DecidableEq, Repr

/-- How the bytes of an interlocked load become a register value (R167, R216, R212). -/
inductive LoadKind where
  | sext (n : Nat)
  | zext (n : Nat)
  | vec
  | pred
deriving DecidableEq, Repr

/-- An interlocked result on its way (R146): either known (a quotient, a GFAA at its own package), the answer to a GFAA
packet of that number (R340), or bytes still to be served. -/
inductive ResSrc where
  | value (v : Vec)
  | divide (v : Vec)
  | gfaa (id : Nat)
  | bytes (kind : LoadKind) (base : Vec) (src : List (Nat × Word))
deriving DecidableEq, Repr

/-- A pending interlocked result and its destination. -/
structure PendRes where
  dst : RegId
  src : ResSrc
deriving DecidableEq, Repr

/-- A range of own TM, from its lowest to its highest byte (R269). -/
structure Range where
  lo : Nat
  hi : Nat
deriving DecidableEq, Repr

/-- A matrix operand as captured at issue (R257, R268): the footprint's bytes, the descriptor words and the format. -/
structure MOperand where
  word0 : Word
  word1 : Word
  fmt : BitVec 32
  bytes : Memory
deriving DecidableEq, Repr

/-- What a matrix request does (R256). Operands are held as the values a load would have returned at the request's
issue point (R268). -/
inductive MOp where
  | zero
  | mma (a b : MOperand)
  | mmas (a b : MOperand)
  | mmav (a : List Byte) (b : MOperand)
  | mwr (row : Nat) (lanes : Vec)
  | mst (word0 word1 : Word) (fmt : BitVec 32) (rmode : BitVec 3) (ctr : Word) (seq : Word)
deriving DecidableEq, Repr

/-- A request in a task's matrix queue (R256) with the ranges it holds (R269). -/
structure MReq where
  acc : Nat
  op : MOp
  fetch : List Range
  store : Option Range
  started : Bool
  /-- Age: the issue order across the tile (R40). -/
  age : Nat
deriving DecidableEq, Repr

/-- A task slot, or the handler slot of a tile: its banks and what is under way for it. -/
structure Task where
  bank : Bank
  kept : Bank
  status : TaskStatus
  haz : List Haz
  /-- While an instruction runs that reads some registers as they were before P (R149): the values that those registers
  hold. Empty between instructions. -/
  newer : List (RegId × Vec)
  pend : List PendRes
  mreq : List MReq
  /-- A STALL whose count has not expired (R180). -/
  stall : Option (BitVec 12)
  /-- No comparator matches the first instruction issued after HRET action 0 (R297, R158). -/
  noCmp : Bool
  /-- The repetition now issuing under a REP word: repetitions to run, counting this one, and its index (R152). -/
  rep : Option (BitVec 7 × BitVec 6)
  /-- The REP word at pc has begun its sequence since it last issued (R301: only its first repetition matches ANYIT). -/
  inSeq : Bool
  /-- The REP word and the word after it as they were fetched when the sequence began: that one word runs count times (R181). -/
  pair : Option (IWord × IWord)
deriving DecidableEq, Repr

/-- A request in the tile's SFU FIFO (R198, R309): operands and modes as at issue. -/
structure SfuReq where
  task : Nat
  fn : BitVec 6
  es : FpTy
  vd : Reg
  a : Vec
  b : Vec
  old : Vec
  act : Pred
  rmode : BitVec 3
  trapen : BitVec 5
  pc : Word
  /-- Under REP: the repetition's place for REPSTATE (R155). -/
  rep : Option (BitVec 7 × BitVec 6)
deriving DecidableEq, Repr

/-- A copy descriptor or fetch-list entry (R233). -/
structure CopyDesc where
  remote : Word
  tm : Nat
  bytes : Nat
  rows : Nat
  rpitch : Nat
  tpitch : Nat
  layout : BitVec 8
  flags : BitVec 8
deriving DecidableEq, Repr

inductive CopyKind where
  | get | put | peer
deriving DecidableEq, Repr

/-- A copy in flight (R234-R237). Its bytes are read and its writes queued as it completes (R235). -/
structure Copy where
  task : Nat
  tag : Word
  kind : CopyKind
  desc : CopyDesc
  /-- Line requests still to be served on the tile's ring: remote address and size, 1 to 64 bytes (R42). -/
  ring : List (Nat × Nat)
deriving DecidableEq, Repr

/-- A block's owner (R50). `engine i` is held for a copy of task `i`; `fetch i` is a staged fetch-list target. -/
inductive Owner where
  | own (i : Nat)
  | engine (i : Nat)
  | fetch (i : Nat)
  | ro
deriving DecidableEq, Repr

/-- The four comparators of a tile (R300). -/
structure Cmps where
  hbrk : Word
  pc : Vector Word 4
  sval : Vector Word 4
deriving DecidableEq, Repr

/-- A logical tile of a launch. -/
structure Tile where
  /-- Physical tile id (R18). -/
  phys : Nat
  wave : Nat
  parked : Bool
  retired : Bool
  /-- Committed TM (R50, R57). -/
  tm : Memory
  own : List Owner
  ownCur : List Owner
  mbHead : Nat
  mbTail : Nat
  mbLost : Nat
  cflags : BitVec 6
  /-- GRES results: group, operation, value (R249). -/
  gres : List ((Nat × Nat) × Word)
  /-- The direction table as bytes (R278). -/
  qrtab : Memory
  /-- The accumulator store as bytes: accumulator m at 16,384 m, element (i, j) at 4 (64 i + j) (R258). -/
  acc : Memory
  sfu : List SfuReq
  copies : List Copy
  /-- CCE deficit and weight of the tile (R42, R43). -/
  deficit : Nat
  weight : Nat
  /-- Comparators of a logical tile that is not on its physical tile now (R300). -/
  cmps : Cmps
  /-- A task of the tile served last by the matrix array (R40). -/
  lastMat : Nat
  /-- A save of the tile is under way, for a park, a move or a change of waves; it is being written to the alternate area, or
  its last image stands there (R310, R318). -/
  saving : Bool
  altSave : Bool
deriving DecidableEq, Repr

/-- The nine group operations (R127). -/
inductive GOp where
  | addd | mind | maxd | andd | ord | xord | fadds | fmins | fmaxs
deriving DecidableEq, Repr

/-- The eight remote atomics (R243). -/
inductive AOp where
  | addw | addd | fadds | mind | maxd | ord | andd | xord
deriving DecidableEq, Repr

/-- A delta or commit-time effect (R54, R57). -/
inductive Effect where
  | tmWrite (tgt : Nat) (own : Bool) (addr : Nat) (bytes : List Byte)
  | atomic (tgt : Nat) (op : AOp) (addr : Nat) (val : Word)
  | msg (tgt : Nat) (payload : List Byte)
  | mbHead (val : Word)
  | gWrite (va : Word) (bytes : List Byte)
  | redAdd (va : Word) (contrib : Int) (finite : Bool)
  | bst (idx : Nat) (val : Word)
  | give (block : Nat) (dst : Nat)
  | trig
  | launch (va : Word) (q : Nat)
  | gred (grp : Nat) (op : GOp) (val : Word)
  | qrtld (first : Nat) (bytes : List Byte)
deriving DecidableEq, Repr

/-- An effect with its canonical key (R54). -/
structure Pend where
  tile : Nat
  task : Nat
  seq : Word
  eff : Effect
deriving DecidableEq, Repr

/-- A fetch list handed to the stager (R238): the tile and task that issued it and its entries. -/
structure Fetch where
  tile : Nat
  task : Nat
  entries : List CopyDesc
deriving DecidableEq, Repr

/-- The launch descriptor's fields (R10). -/
structure Desc where
  version : BitVec 32
  flags : BitVec 32
  entry : Word
  param : Word
  ntile : Nat
  tasks : Nat
  accs : Nat
  pool : Nat
  minDies : Nat
  maxDies : Nat
  npkg : Nat
  dieMask : BitVec 8
  zero23 : BitVec 8
  ngroups : Nat
  seed : Word
  groupVa : Word
  qrVa : Word
  ctxVa : Word
  altVa : Word
  flistVa : Word
  mbBase : Nat
  mbSize : Nat
  deps : List Word
  digestVa : Word
  conflVa : Word
  domain : BitVec 32
  abortLimit : Nat
  ctrVa : Word
  ctrCount : Nat
  digestMode : Nat
  pkgVa : Word
  complVa : Word
  id : Word
  zeroTail : Bool
deriving DecidableEq, Repr

/-- A write that counts for conflicts (R84): source tile and task, whether it is a commit-time operation, and the address. -/
structure Touch where
  tile : Nat
  task : Nat
  op : Bool
  key : Nat
deriving DecidableEq, Repr

/-- A conflict record (R325): address, kind (0 TM word, 1 global byte) and its sources. -/
structure ConflRec where
  addr : Nat
  kind : Nat
  a : Touch
  b : Touch
deriving DecidableEq, Repr

/-- The states of a superstep on a package (R23), and the states of a launch outside it (R310-R318, R351, R352, R376); `dark`
is a package that has drained its part and has not restored it (R383). -/
inductive Phase where
  | queued
  | stage
  | compute
  | closing
  | voted
  | sent
  | aborting
  | committed
  | paused
  | parking
  | parked
  | held
  | waitSpare
  | failed
  | ended
  | dark
deriving DecidableEq, Repr

/-- State of one group partial for FP operations (R347). -/
structure Partial where
  grp : Nat
  op : GOp
  /-- The contributions; for the exact sum they are kept as values, which the 320-bit sum is a function of (R114). -/
  vals : List Word
deriving DecidableEq, Repr

/-- What a package's vote carries (R23, R347). -/
structure Vote where
  abort : Bool
  cause : Nat
  ckpt : Bool
  reshape : Bool
  flags : BitVec 5
  /-- The XOR of the package's digest terms (R322). -/
  digest : Word
  exited : Nat
  /-- The lowest-keyed ABORTREQ: its key, which is tile, task and sequence, and its value (R229, R347). -/
  req : Option (Nat × Nat × Word × BitVec 32)
  partials : List Partial
deriving DecidableEq, Repr

/-- A launch on one of its packages: superstep state (R23). -/
structure LPkg where
  phase : Phase
  wave : Nat
  sstep : Nat
  reexec : Nat
  /-- Counted aborts of the current superstep (R305). -/
  aborts : Nat
  /-- Class B causes raised in the current superstep (R25). -/
  causes : List Nat
  /-- A pre-emption or power park waits for the next barrier (R311). -/
  parkReq : Bool
  vote : Option Vote
  /-- Votes processed for this superstep, by package (R349). -/
  seen : Tab Nat Vote
  /-- Packages whose LAST VOTE frame has been processed (R349). -/
  lasts : List Nat
  /-- Packages whose LAST COMMIT frame for this commit has been processed (R350). -/
  notices : List Nat
  /-- The Broadcast Table as it stood at the reader's last commit (R76). -/
  bt : Tab Nat Word
  /-- Lowest-keyed ABORTREQ of the current superstep (R229). -/
  req : Option (Nat × Nat × Word × BitVec 32)
deriving DecidableEq, Repr

/-- Dies that a launch moves to, and for each of its logical tiles the physical tile and the wave that it gets (R17, R313). -/
structure Move where
  dies : List (Nat × Nat)
  places : List (Nat × Nat)
deriving DecidableEq, Repr

/-- A shadow page (R64): home package, virtual page number, its physical page and the page it was copied from. -/
structure Shadow where
  home : Nat
  vpn : Nat
  ppn : Nat
  old : Nat
deriving DecidableEq, Repr

/-- A launch, from its push to the end (R10, R23). -/
structure Launch where
  id : Word
  pkg : Nat
  dom : Nat
  queue : Nat
  va : Word
  desc : Desc
  pkgs : List Nat
  groups : List (List Nat)
  /-- Granted dies: (package, die), ascending (R16). -/
  dies : List (Nat × Nat)
  /-- Ageing levels gained while queued (R28). -/
  aged : Nat
  /-- The place in the order of enqueueing, and of starting (R32, R33). -/
  order : Nat
  started : Nat
  lp : Tab Nat LPkg
  pends : List Pend
  fetchNow : List Fetch
  fetchNext : List Fetch
  shadows : List Shadow
  /-- Counter snapshot by address (R81) and the snapshot of superstep 0 (R308). -/
  snap : Memory
  snap0 : Memory
  /-- PTEs as they stood at superstep start where firmware has changed them since (R63): (package, page) and PTE. -/
  ptOld : Tab (Nat × Nat) (BitVec 64)
  /-- Launch-start versions of the pages a REPLAY launch wrote (R66). -/
  replay : List Shadow
  restarts : Nat
  gflags : BitVec 5
  digest : Word
  /-- The superstep is being re-run serialised (R324). -/
  serial : Bool
  /-- Conflict records of the launch (R325), and their number as the last commit or the launch start left it (R179). -/
  confl : Nat
  conflSeen : Nat
  trigs : List (Nat × Nat)
  /-- The trigger condition holds, and every package has seen the flips of the commit at which it came to hold (R35). -/
  trigHeld : Bool
  trigDone : Bool
  killMark : Bool
  /-- A LAUNCH was committed or a BCAST frame sent (R308). -/
  outward : Bool
  /-- Launch ids enqueued since the last checkpoint (R353). -/
  enqueued : List Word
  /-- Pages flipped since the last checkpoint (R351): (home, vpn). -/
  flipped : List (Nat × Nat)
  /-- Dies demanded back on each package, the queued launches that they are demanded for, and those for whose sake a demand has
  lapsed (R45; log entry 41). -/
  demand : Nat
  demandFor : List Nat
  lapsed : List Nat
  /-- Checkpoint asked at this commit (R227). -/
  ckpt : Bool
  /-- The status the launch ends with. -/
  status : Nat
  /-- Packages the launch could not release since a save failed (R318). -/
  holdTiles : Bool
  /-- Packages whose paths must be redrawn before the re-run (R338). -/
  waitPaths : List Nat
  /-- Conflicts found in the superstep, on whichever package (R391). -/
  found : List ConflRec
  /-- The dies the launch is moving to at its last commit (R21, R22, R313), and whether a failed save holds the move (R318). -/
  move : Option Move
  moveHeld : Bool
  /-- The initial fetch lists as read when the descriptor was validated (R240, R385): tile and entries, or none for a list
  that breaks R238. -/
  initial : List (Nat × Option (List (List Byte)))
  /-- Launch ids that a re-run from a restored checkpoint does not enqueue again (R353). -/
  again : List Word
  /-- Tiles that contributed to a saturated reduction word, or an operand that was not finite, in the superstep that commits
  (R80, R116). -/
  wo : List Nat
  /-- The pawn position of the launch's start, which each of its packages reaches before superstep 0 computes (R76, R77). -/
  startAck : Nat
  /-- The images of the later waves' tiles are still to be written: the launch has started, or been restored, and not computed yet (R19). -/
  fresh : Bool
  /-- D of the superstep as the first package to decide it combined it (R322, R349). -/
  decided : Option Word
  /-- A launch fault that waits: for the other packages to apply a commit that one has applied (R349), or for the notices of the
  launch's commits before a restart (R308). -/
  fault : Option Nat
deriving DecidableEq, Repr

/-- A handler slot (R292, R293): the trap it serves and up to four waiting ones, each with the ALT mark. -/
structure Handler where
  serving : Option (Slot × Bool)
  queue : List (Slot × Bool)
deriving DecidableEq, Repr

/-- A launch queue of a domain (R30, R360): filled entries (model launch numbers), pre-empted launches ahead of them,
and the counters of the queue status register. -/
structure Queue where
  entries : List Nat
  ahead : List Nat
  reserved : Nat
  refused : BitVec 32
  badva : BitVec 16
deriving DecidableEq, Repr

/-- A security domain on a package (R360, R365-R367). -/
structure Dom where
  configured : Bool
  cfg : DomCfg
  queues : Vector Queue 8
  wbsel : Word
  evhead : Nat
  evtail : Nat
  evlost : BitVec 32
  /-- The retained completions, most recent first: launch id and status (R34). -/
  done : List (Word × Nat)
  /-- The Broadcast Table (R75). -/
  bt : Tab Nat Word
  /-- The domain is held in restore (R383). -/
  restore : Bool
deriving DecidableEq, Repr

/-- Where a lane stands (R332-R334). -/
inductive LaneMode where
  | active
  | locking (tries : Nat)
  | waiting (tries : Nat)
  | failed
deriving DecidableEq, Repr

/-- A receive lane of a port: corrected symbols of the running sub-window and of the last 256 (R332). -/
structure Lane where
  mode : LaneMode
  now : Nat
  wins : List Nat
  episode : Bool
deriving DecidableEq, Repr

/-- A fabric port (R331). -/
structure Port where
  corrsym : BitVec 48
  uncorr : BitVec 48
  thr : BitVec 32
  minlanes : BitVec 6
  count : BitVec 32
  last : BitVec 6
  lv : Bool
  lanes : Tab Nat Lane
  replays : Nat
  /-- The number of the stream's next beat (R329). -/
  beat : Nat
  lost : Bool
deriving DecidableEq, Repr

/-- One HBM bank's refresh management (R86). -/
structure RowTrack where
  tracker : Bool
  rows : List (Nat × Nat)
  acts : Nat
  /-- Rows for which directed refresh management was issued, latest first; commands with rows chosen by the DRAM. -/
  directed : List Nat
  commands : Nat
deriving DecidableEq, Repr

/-- A stack's refresh registers (R372). -/
structure Stack where
  trk : Bool
  thr : BitVec 16
  level : BitVec 16
deriving DecidableEq, Repr

/-- A physical page waiting to return to the shadow pool (R68): the launch, whether its next commit has completed, and
the packages whose acknowledgement is missing, each with the visit of the frame that it has processed, if it has: its
acknowledgement is an ACK of at least that visit (R348). A launch-start version of a REPLAY launch is kept until the launch ends
(R66). -/
structure Released where
  ppn : Nat
  launch : Nat
  kept : Bool
  nextCommit : Bool
  waiting : List (Nat × Option Nat)
deriving DecidableEq, Repr

/-- The shadow pool of a domain on a package (R64, R367): its size in pages, the pages that are occupied, the first page never used yet,
pages returned, and the pages taken for a shadow that has not flipped yet, each with its launch and superstep. A flip makes a page of the
pool a page of the domain, and the page that it replaced one of the pool. -/
structure Pool where
  size : Nat
  used : Nat
  next : Nat
  free : List Nat
  out : List (Nat × Nat × Nat)
  releasing : List Released
deriving DecidableEq, Repr

/-- Payload of a plane frame (R347). A VOTE frame that continues a vote carries group partials only (R356). -/
inductive Payload where
  | pawn (sched : Option (Nat × List (BitVec 32)))
  | vote (launch : Nat) (k : Nat) (reexec : Nat) (v : Vote)
  | voteMore (launch : Nat) (k : Nat) (reexec : Nat) (ps : List Partial)
  | commit (launch : Nat) (k : Nat) (pages : List Shadow)
  | notice (pages : List (Nat × Nat))
  | bcast (launch : Nat) (k : Nat) (entries : List (Nat × Word))
deriving DecidableEq, Repr

/-- A frame of the broadcast plane (R346): LEN is the length of its payload, ACK the highest visit up to which the sender had
processed every frame when it sent this one. -/
structure Frame where
  dom : Nat
  src : Nat
  len : Nat
  visit : Nat
  ack : Nat
  last : Bool
  rpt : Bool
  pay : Payload
deriving DecidableEq, Repr

/-- A complete or growing checkpoint set held by a partner (R319, R351). -/
structure CkptSet where
  launch : Nat
  owner : Nat
  /-- Which of the two places at the partner the set takes. -/
  slot : Nat
  sstep : Nat
  complete : Bool
  tiles : Tab Nat Tile
  tasks : Tab Slot Task
  pages : List (Nat × Memory)
  counters : Memory
  /-- Fetch lists that the next STAGE takes (R238; log entry 44). -/
  fetch : List Fetch
  /-- GFLAGS and F of the launch as the checkpoint left them. -/
  gflags : BitVec 5
  digest : Word
  /-- A kill has been committed (R297). -/
  killMark : Bool
deriving DecidableEq, Repr

/-- A stream record (R316): QSTEP, QIDX, QDRAWPREV, PIPCTR, PIPDRAWPREV. -/
structure StreamRec where
  slot : Slot
  qstep : Word
  qidx : Word
  qdrawprev : Word
  pipctr : Word
  pipdrawprev : Word
deriving DecidableEq, Repr

/-- Where a drain stands (R377-R383). -/
inductive Drain where
  | none
  | asserted
  | draining
  | off
deriving DecidableEq, Repr

/-- The drain image on board flash (R378): its header (version, package, visit counter, time and part sizes), whether it is
valid, pages by physical number, the launches of the package, and the trailer's digest. -/
structure DrainImage where
  version : BitVec 32
  pkg : Nat
  visit : Nat
  time : Word
  sizes : List Nat
  trailer : BitVec 512
  valid : Bool
  pages : List (Nat × Memory)
  doms : Tab Nat Dom
  launches : Tab Nat Launch
  /-- Tiles of the launches that were running, with their tasks. -/
  tiles : Tab (Nat × Nat) Tile
  tasks : Tab Slot Task
  /-- What the records of the other launches say of their tiles: which have retired, and their CCE weights. -/
  records : Tab (Nat × Nat) Tile
  tables : Memory
  regions : List (BitVec 64)
  pools : Vector Pool 4
  /-- Checkpoint sets and stream records that the package holds for others (R351), whose pages are dirty (R380). -/
  ckpts : List CkptSet
  streams : List StreamRec
deriving DecidableEq, Repr

/-- The power block and the walk (R373-R375, R381). -/
structure Power where
  pwrstep : BitVec 3
  pins : BitVec 3
  sample : BitVec 3
  target : BitVec 3
  levels : List (BitVec 3)
  walk : Option Nat
  ack : Bool
  pending : Bool
  drainbud : Word
  draincap : Word
  dirtyOld : List Nat
  dirtyNew : Option (List Nat)
  evt : BitVec 3
  /-- The package-wide actions of level 7 hold: from the first step of a walk towards it to the last step of one below it (R374,
  R376). -/
  park7 : Bool
  ceilPark : Bool
  /-- Input power has come back while the drain runs (R377). -/
  back : Bool
deriving DecidableEq, Repr

/-- Bring-up (R359, R368). -/
structure Boot where
  step : Nat
  fail : BitVec 8
  degraded : Bool
  halted : Bool
  woken : Nat
  /-- The accepted Thinte image's measurement and security version (R369, R370). -/
  measurement : BitVec 512
  version : BitVec 32
deriving DecidableEq, Repr

/-- The fuses, which outlast a loss of power (R368): the key hash and minimum security version that the ROM checks (R369), and
the tiles that bring-up has not fused off. -/
structure Fuses where
  keyHash : BitVec 256
  minVersion : BitVec 32
  tiles : Vector (BitVec 256) 8
deriving DecidableEq, Repr

/-- An access that no domain's log records (R358). -/
structure SecLog where
  offset : Nat
deriving DecidableEq, Repr

/-- A package. -/
structure Pkg where
  boot : Boot
  fuses : Fuses
  /-- Stacks out of service since HBM training (R368). -/
  stacksOut : BitVec 16
  /-- Window B is 2^bar GiB long (R358). -/
  bar : Nat
  /-- Usable tiles of die d, bit 16c + t (R371). -/
  harvest : Vector (BitVec 256) 8
  /-- HBM contents by physical address, in plain text (R341; log entry 10). -/
  hbm : Memory
  /-- The shadow pool of each domain (R64, R367; log entry 12). -/
  pools : Vector Pool 4
  doms : Vector Dom 4
  /-- The domain whose page last wrote WBSEL (R364). -/
  wbdom : Nat
  nonce : Vector Word 4
  attPend : Option Word
  ports : Tab Nat Port
  paths : Tab Nat (BitVec 64)
  regions : List (BitVec 64)
  pairs : Tab Nat (BitVec 64)
  hbmStacks : Tab Nat Stack
  banks : Tab (Nat × Nat) RowTrack
  power : Power
  drain : Drain
  image : Option DrainImage
  msix : List Nat
  /-- Bytes returned by the latest host or sideband read. -/
  hostData : List Byte
  secLog : List SecLog
  /-- A schedule that the package's next PAWN frame announces (R344, R347). -/
  announce : Option (Nat × List (BitVec 32))
  /-- Frames ready for a visit, in the order in which they became ready, and frames that may not be sent yet (R345). -/
  tx : List Frame
  txHeld : List Frame
  /-- Frames received and not yet processed, ascending VISIT; `none` marks a missed one (R348). -/
  rx : List (Option Frame × Nat)
  /-- The visit whose frame or repeat was received last. -/
  lastRx : Nat
  ack : Nat
  /-- ACK of every other member as its latest frame received here carried it (R346). -/
  acks : Tab Nat Nat
  /-- Pages of COMMIT frames received so far whose list has not ended: sender, launch and superstep (R347, R350). -/
  listing : Tab (Nat × Nat × Nat) (List Shadow)
  failed : Bool
  spare : Bool
  partner : Tab Nat Nat
  ckpts : List CkptSet
  streams : List StreamRec
  /-- Lines that host writes on another package changed and whose notice is still to come (R79): page and old bytes. -/
  stale : List (Nat × Nat × Memory)
deriving DecidableEq, Repr

/-- A packet on the fabric whose answer matters (R336-R340): remote deltas, messages, remote atomics, held writes,
REDADD contributions, GFAAs and forwarded broadcast writes. One that is still held is sent in CLOSING (R64, R75). -/
inductive PktState where
  | held
  | inFlight
  | received
  | refused (cause : Nat)
deriving DecidableEq, Repr

/-- A GFAA request (R340): the slot and the number of the result it waits for, the counter's physical address at its home, and
the addend. -/
structure GfaaReq where
  slot : Slot
  id : Nat
  addr : Nat
  add : Word
deriving DecidableEq, Repr

structure Packet where
  src : Nat
  dst : Nat
  /-- The routing address and the entry of the path table that it selected (R336). -/
  ra : Nat
  path : BitVec 64
  launch : Nat
  pends : List Pend
  gfaa : Option GfaaReq
  st : PktState
deriving DecidableEq, Repr

/-- The star (R344): members, the schedule in force, one announced, the visit number, frames not yet acknowledged, and the
packages whose entries pass unused until a new schedule (R357). -/
structure Star where
  members : List Nat
  sched : List (BitVec 32)
  next : Option (Nat × List (BitVec 32))
  visit : Nat
  pos : Nat
  sent : List Frame
  unused : List Nat
deriving DecidableEq, Repr

/-- What happens next: a slot issues, or an event occurs. -/
inductive Item where
  | issue (s : Slot)
  | event (i : Instr)
deriving DecidableEq, Repr

/-- The order in which an empty agenda lets slots and events go on (log entry 9): the place in the table of slots from which
the next slot is sought, a count of event turns, the instructions issued since the last event, and their number when the
present sweep of the table began. -/
structure Pace where
  wheel : Nat
  turn : Nat
  issued : Nat
  mark : Nat
deriving DecidableEq, Repr

/-- The machine. -/
structure State where
  /-- The slot that issues or issued last. -/
  cur : Slot
  agenda : List Item
  pace : Pace
  tasks : Tab Slot Task
  tiles : Tab (Nat × Nat) Tile
  launches : Tab Nat Launch
  handlers : Tab (Nat × Nat) Handler
  cmps : Tab (Nat × Nat) Cmps
  pkgs : Tab Nat Pkg
  fabric : List Packet
  star : Star
  /-- The model's own counter for free values and for orders of enqueueing and issue; no value of the machine (log entry 9). -/
  free : Nat
deriving DecidableEq, Repr

/-- Reasons a step stops with a fault. -/
inductive Fault where
  /-- Raised by an event that names an object the part does not have (a port above 27, a lane above 63, a die above 7).
  Safe: the part has no such event. -/
  | noSuchObject
deriving DecidableEq, Repr

/-- Reasons a step is refused. -/
inductive Refusal where
  /-- Raised by an arm of `exec` that has no meaning yet, with the row's mnemonic. Safe. -/
  | notModelled (mnemonic : String)
deriving DecidableEq, Repr

/-! ### Reset -/

/-- A bank of zeros: every register at 0, p0 at all ones and the format registers at FP32 (R13, R137). -/
def Bank.zero : Bank :=
  { x := Vector.replicate 32 0, v := Vector.replicate 32 0, p := (Vector.replicate 8 0).set 0 (BitVec.allOnes 256), pc := 0, tflags := 0,
    rmode := 0, trapen := 0, stallchk := 0, repRemain := 0, repIter := 0, fmt := Vector.replicate 8 1, qidx := 0,
    qdim := 0, qseed := 0, qmode := 0, qstep := 0, qdraw := 0, qdrawprev := 0, pipctr := 0, pipdraw := 0,
    pipdrawprev := 0, seq := 0, tags := [] }

/-- A slot with nothing under way. -/
def Task.zero : Task :=
  { bank := .zero, kept := .zero, status := .retired, haz := [], newer := [], pend := [], mreq := [], stall := none, noCmp := false, rep := none, inSeq := false, pair := none }

def Cmps.zero : Cmps := { hbrk := 0, pc := Vector.replicate 4 0, sval := Vector.replicate 4 0 }

/-- A tile with empty memories. -/
def Tile.zero : Tile :=
  { phys := 0, wave := 0, parked := false, retired := false, tm := [], own := [], ownCur := [], mbHead := 0, mbTail := 0,
    mbLost := 0, cflags := 0, gres := [], qrtab := [], acc := [], sfu := [], copies := [], deficit := 0, weight := 8,
    cmps := .zero, lastMat := 0, saving := false, altSave := false }

def Desc.zero : Desc :=
  { version := 0, flags := 0, entry := 0, param := 0, ntile := 0, tasks := 0, accs := 0, pool := 0, minDies := 0, maxDies := 0,
    npkg := 0, dieMask := 0, zero23 := 0, ngroups := 0, seed := 0, groupVa := 0, qrVa := 0, ctxVa := 0, altVa := 0,
    flistVa := 0, mbBase := 0, mbSize := 0, deps := [], digestVa := 0, conflVa := 0, domain := 0, abortLimit := 0,
    ctrVa := 0, ctrCount := 0, digestMode := 0, pkgVa := 0, complVa := 0, id := 0, zeroTail := true }

def LPkg.zero : LPkg :=
  { phase := .queued, wave := 0, sstep := 0, reexec := 0, aborts := 0, causes := [], parkReq := false, vote := none,
    seen := [], lasts := [], notices := [], bt := [], req := none }

def Launch.zero : Launch :=
  { id := 0, pkg := 0, dom := 0, queue := 0, va := 0, desc := .zero, pkgs := [], groups := [], dies := [], aged := 0,
    order := 0, started := 0, lp := [], pends := [], fetchNow := [], fetchNext := [], shadows := [], snap := [],
    snap0 := [], ptOld := [], replay := [], restarts := 0, gflags := 0, digest := 0, serial := false, confl := 0, conflSeen := 0,
    trigs := [], trigHeld := false, trigDone := false, killMark := false, outward := false, enqueued := [], flipped := [], demand := 0, demandFor := [], lapsed := [],
    ckpt := false, status := 0, holdTiles := false, waitPaths := [], found := [], move := none, moveHeld := false, initial := [], again := [],
    wo := [], startAck := 0, fresh := false, decided := none, fault := none }

def Handler.zero : Handler := { serving := none, queue := [] }

def Queue.zero : Queue := { entries := [], ahead := [], reserved := 0, refused := 0, badva := 0 }

def Dom.zero : Dom :=
  { configured := false, cfg := .zero, queues := Vector.replicate 8 .zero, wbsel := 0, evhead := 0, evtail := 0, evlost := 0,
    done := [], bt := [], restore := false }

def Lane.zero : Lane := { mode := .active, now := 0, wins := [], episode := false }

/-- A port at reset: THR 85,899, MINLANES 16, every lane active (R331). -/
def Port.zero : Port :=
  { corrsym := 0, uncorr := 0, thr := 85899, minlanes := 16, count := 0, last := 0, lv := false, lanes := [], replays := 0, beat := 0, lost := false }

/-- A stack at reset: budget mode, THR 4,096, LEVEL 2,048 (R372). -/
def Stack.zero : Stack := { trk := false, thr := 4096, level := 2048 }

def RowTrack.zero : RowTrack := { tracker := false, rows := [], acts := 0, directed := [], commands := 0 }

/-- The power block at reset (R375): DRAINBUD 16 GiB, DRAINCAP 24 GiB, every cluster at level 0. -/
def Power.zero : Power :=
  { pwrstep := 0, pins := 0, sample := 0, target := 0, levels := List.replicate 128 0, walk := none, ack := false, pending := false,
    drainbud := 0x400000000, draincap := 0x600000000, dirtyOld := [], dirtyNew := none, evt := 0, park7 := false, ceilPark := false, back := false }

/-- Fuses as the part is delivered: no minimum raised, no tile fused off (log entry 55). -/
def Fuses.zero : Fuses := { keyHash := 0, minVersion := 0, tiles := Vector.replicate 8 (BitVec.allOnes 256) }

/-- A domain's shadow pool before any page of it is used: 64 GiB, from the domain's own part of the physical pages on (R64; log entry 12). -/
def Pool.first (d : Nat) : Pool := { size := 0x100000, used := 0, next := 0x100000 + d * 0x200000, free := [], out := [], releasing := [] }

/-- A package released from reset: bring-up step 1 (R359, R368); firmware state empty (log entry 11). -/
def Pkg.zero : Pkg :=
  { boot := { step := 1, fail := 0, degraded := false, halted := false, woken := 0, measurement := 0, version := 0 }, fuses := .zero,
    stacksOut := 0, bar := 0,
    harvest := Vector.replicate 8 (BitVec.allOnes 256), hbm := [], pools := #v[.first 0, .first 1, .first 2, .first 3],
    doms := Vector.replicate 4 .zero, wbdom := 0, nonce := Vector.replicate 4 0, attPend := none, ports := [], paths := [],
    regions := [], pairs := [], hbmStacks := [], banks := [], power := .zero, drain := .none, image := none, msix := [],
    hostData := [], secLog := [], announce := none, tx := [], txHeld := [], rx := [], lastRx := 0, ack := 0, acks := [], listing := [], failed := false, spare := false,
    partner := [], ckpts := [], streams := [], stale := [] }

def Star.zero : Star := { members := [], sched := [], next := none, visit := 0, pos := 0, sent := [], unused := [] }

/-- The machine right after reset: one package, number 0, that belongs to no star, at bring-up step 1; nothing runs. -/
def State.reset : State :=
  { cur := .thread 0 0 0, agenda := [], pace := { wheel := 0, turn := 0, issued := 0, mark := 0 }, tasks := [], tiles := [], launches := [], handlers := [], cmps := [], pkgs := [(0, .zero)],
    fabric := [], star := .zero, free := 0 }

end Sys2Proof.Machine
end

