-- ==== Sys2Proof/Machine/Mem.lean ====
section
/-!
DEFINITION. Tables, byte memories in canonical form, byte order, and small bit-field helpers.
-/

namespace Sys2Proof.Machine

open Sys2Proof

/-! ### Tables -/

/-- The entry of a table, if it lists the key. -/
def Tab.find {K V : Type} [DecidableEq K] : Tab K V → K → Option V
  | [], _ => none
  | (a, v) :: t, k => if a = k then some v else Tab.find t k

/-- The entry of a table, or a default. -/
def Tab.get {K V : Type} [DecidableEq K] (t : Tab K V) (d : V) (k : K) : V :=
  match Tab.find t k with
  | some v => v
  | none => d

/-- Replace an entry or add one at the end. -/
def Tab.put {K V : Type} [DecidableEq K] : Tab K V → K → V → Tab K V
  | [], k, v => [(k, v)]
  | (a, w) :: t, k, v => if a = k then (k, v) :: t else (a, w) :: Tab.put t k v

/-- Remove every entry of a key. -/
def Tab.del {K V : Type} [DecidableEq K] (t : Tab K V) (k : K) : Tab K V :=
  t.filter fun e => e.1 != k

/-! ### Memories -/

/-- The byte at an address; an unlisted address reads 0 (log entry 1). -/
def Memory.get : Memory → Nat → Byte
  | [], _ => 0
  | (a, b) :: m, k => if a = k then b else Memory.get m k

/-- The cells of a run of bytes that are not zero. -/
def Memory.cells : Nat → List Byte → Memory
  | _, [] => []
  | a, b :: bs => if b = 0 then Memory.cells (a + 1) bs else (a, b) :: Memory.cells (a + 1) bs

/-- Replace the `len` bytes at `lo` by the bytes `img` lists at 0 to `len` - 1. -/
def Memory.place (m : Memory) (lo len : Nat) (img : Memory) : Memory :=
  m.filter (fun c => c.1 < lo) ++ ((img.filter fun c => c.1 < len).map fun c => (lo + c.1, c.2)) ++
    m.filter (fun c => lo + len ≤ c.1)

/-- Write bytes at an address, ascending. -/
def Memory.write (m : Memory) (a : Nat) (bs : List Byte) : Memory :=
  m.filter (fun c => c.1 < a) ++ Memory.cells a bs ++ m.filter (fun c => a + bs.length ≤ c.1)

/-- The `len` bytes at `lo`, moved to 0. -/
def Memory.extract (m : Memory) (lo len : Nat) : Memory :=
  (m.filter fun c => lo ≤ c.1 && c.1 < lo + len).map fun c => (c.1 - lo, c.2)

/-- Read `n` bytes at an address. -/
def Memory.read (m : Memory) (a n : Nat) : List Byte :=
  (List.range n).map fun i => Memory.get m (a + i)

/-- The canonical form from an address on: rising addresses, no zero byte. -/
def Memory.wfFrom : Nat → Memory → Bool
  | _, [] => true
  | lo, (a, b) :: m => decide (lo ≤ a) && b != 0 && Memory.wfFrom (a + 1) m

/-- The canonical form: strictly rising addresses and no byte that an unlisted address reads as. -/
def Memory.wf (m : Memory) : Bool := Memory.wfFrom 0 m

/-! ### Byte order (R2: little-endian) -/

/-- The value of bytes, least significant first. -/
def leNat : List Byte → Nat
  | [] => 0
  | b :: bs => b.toNat + 256 * leNat bs

/-- The `n` low bytes of a value, least significant first. -/
def natLe : Nat → Nat → List Byte
  | 0, _ => []
  | n + 1, v => BitVec.ofNat 8 (v % 256) :: natLe n (v / 256)

/-- A little-endian value in memory. -/
def Memory.nat (m : Memory) (a n : Nat) : Nat := leNat (Memory.read m a n)

/-- Store an `n`-byte little-endian value. -/
def Memory.setNat (m : Memory) (a n v : Nat) : Memory := Memory.write m a (natLe n v)

/-! ### Bits -/

/-- Bits [lo + len - 1 : lo] of a number. -/
def bits (v lo len : Nat) : Nat := v / 2 ^ lo % 2 ^ len

/-- Bit `i` of a number. -/
def bitAt (v i : Nat) : Bool := v / 2 ^ i % 2 == 1

/-- 1 or 0. -/
def b01 (b : Bool) : Nat := if b then 1 else 0

/-- Sign-extend the low `n` bits to a word. -/
def sextN (n v : Nat) : Word := BitVec.ofInt 64 (if v % 2 ^ n < 2 ^ (n - 1) then (v % 2 ^ n : Nat) else (v % 2 ^ n : Nat) - (2 ^ n : Nat))

/-- A two's-complement reading of the low `n` bits. -/
def sint (n v : Nat) : Int := if v % 2 ^ n < 2 ^ (n - 1) then (v % 2 ^ n : Nat) else (v % 2 ^ n : Nat) - (2 ^ n : Nat)

/-- Insert into a list ordered by `le`, after equals: a stable insertion sort is built on it. -/
def insertBy {α : Type} (lt : α → α → Bool) (a : α) : List α → List α
  | [] => [a]
  | b :: bs => if lt a b then a :: b :: bs else b :: insertBy lt a bs

/-- A stable sort. -/
def sortBy {α : Type} (lt : α → α → Bool) (l : List α) : List α :=
  l.foldl (fun acc a => insertBy lt a acc) []

/-- The least member that satisfies a test, at or above a bound, within a number of tries. -/
def firstFrom (p : Nat → Bool) : Nat → Nat → Option Nat
  | _, 0 => none
  | n, k + 1 => if p n then some n else firstFrom p (n + 1) k

/-- Drop repeats, keeping first occurrences. -/
def dedup {α : Type} [DecidableEq α] : List α → List α
  | [] => []
  | a :: l => a :: (dedup l).filter (fun b => b != a)

/-- Split a list into runs of `n` within a number of runs. -/
def chunks {α : Type} (n : Nat) : Nat → List α → List (List α)
  | 0, _ => []
  | _, [] => []
  | k + 1, l => l.take n :: chunks n k (l.drop n)

end Sys2Proof.Machine
end

