-- ==== Sys2Proof/Machine/Float.lean ====
section
/-!
DEFINITION. Numbers: formats (R91, R93-R98), exact values, rounding (R99-R103), element operations (R110), block scales
(R112, R113), sums (R114-R118) and special functions (R120). All arithmetic is on exact dyadic numbers.
-/

namespace Sys2Proof.Machine

open Sys2Proof

/-- The five FP flags (R107): bit 0 NX, 1 UF, 2 OF, 3 DZ, 4 NV. -/
abbrev FFlags := BitVec 5

def FFlags.nx : FFlags := 1
def FFlags.uf : FFlags := 2
def FFlags.of : FFlags := 4
def FFlags.dz : FFlags := 8
def FFlags.nv : FFlags := 16

/-- A format: sign bit present, exponent and fraction widths, bias, and how the top codes are read (R93, R96). -/
structure FFmt where
  s : Bool
  e : Nat
  m : Nat
  bias : Int
  /-- 0 all codes finite, 1 the all-ones magnitude is NaN, 2 IEEE-like. -/
  spec : Nat
  nznan : Bool
  ovinf : Bool
deriving DecidableEq, Repr

/-- FP32 (R91). -/
def fp32 : FFmt := { s := true, e := 8, m := 23, bias := 127, spec := 2, nznan := false, ovinf := true }
/-- BF16 (R91). -/
def bf16 : FFmt := { s := true, e := 8, m := 7, bias := 127, spec := 2, nznan := false, ovinf := true }
/-- FP16 (R91). -/
def fp16 : FFmt := { s := true, e := 5, m := 10, bias := 15, spec := 2, nznan := false, ovinf := true }

/-- The format of an element type (R131, R184). -/
def fpFmt : FpTy → FFmt
  | .f32 => fp32 | .bf16 => bf16 | .f16 => fp16

/-- The width of a code. -/
def FFmt.width (f : FFmt) : Nat := b01 f.s + f.e + f.m

/-- An exact value: (-1)^neg × mant × 2^exp, an infinity, or a NaN. -/
inductive FVal where
  | nan (signalling : Bool)
  | inf (neg : Bool)
  | num (neg : Bool) (mant : Nat) (exp : Int)
deriving DecidableEq, Repr

/-- Narrow-format fields of an FMT register (R93): KIND, W, S, E, BIAS, SPEC, NZNAN, OVINF, ZERO. -/
def fmtKind (r : BitVec 32) : Nat := bits r.toNat 0 2
def fmtW (r : BitVec 32) : Nat := bits r.toNat 2 4
def fmtS (r : BitVec 32) : Nat := bits r.toNat 6 1
def fmtE (r : BitVec 32) : Nat := bits r.toNat 7 3
def fmtBias (r : BitVec 32) : Int := sint 8 (bits r.toNat 10 8)
def fmtSpec (r : BitVec 32) : Nat := bits r.toNat 18 2
def fmtNzNan (r : BitVec 32) : Nat := bits r.toNat 20 1
def fmtOvInf (r : BitVec 32) : Nat := bits r.toNat 21 1

/-- The validity of a format register (R94). -/
def fmtValid (r : BitVec 32) : Bool :=
  if fmtKind r != 0 then bits r.toNat 2 30 == 0
  else
    let w := fmtW r; let s := fmtS r; let e := fmtE r
    decide (3 ≤ w) && decide (w ≤ 8) && decide (e ≤ 6) && decide (s + e ≤ w) && decide (1 ≤ w - s) &&
    fmtSpec r != 3 && (fmtSpec r != 2 || decide (2 ≤ e)) && (fmtNzNan r == 0 || s == 1) &&
    (fmtOvInf r == 0 || fmtSpec r == 2) && bits r.toNat 22 10 == 0 &&
    decide ((2 ^ e : Nat) - 1 - fmtBias r ≤ (127 : Int)) && decide ((-149 : Int) ≤ 1 - fmtBias r - (w - s - e : Nat))

/-- The format a register describes (R93). -/
def fmtOf (r : BitVec 32) : FFmt :=
  match fmtKind r with
  | 1 => fp32
  | 2 => bf16
  | 3 => fp16
  | _ => { s := fmtS r == 1, e := fmtE r, m := fmtW r - fmtS r - fmtE r, bias := fmtBias r, spec := fmtSpec r,
           nznan := fmtNzNan r == 1, ovinf := fmtOvInf r == 1 }

/-- Width classes (R98). -/
inductive WClass where
  | c32 | c16 | c8 | c4
deriving DecidableEq, Repr

def fmtClass (r : BitVec 32) : WClass :=
  match fmtKind r with
  | 1 => .c32
  | 2 => .c16
  | 3 => .c16
  | _ => if fmtW r ≤ 4 then .c4 else .c8

/-- Bits an element takes in storage (R98). -/
def WClass.bits : WClass → Nat
  | .c32 => 32 | .c16 => 16 | .c8 => 8 | .c4 => 4

/-- The value of a code (R96; for FP32, BF16 and FP16 a NaN with a clear top fraction bit is signalling, R91). -/
def fdecode (f : FFmt) (ieee : Bool) (code : Nat) : FVal :=
  let fr := code % 2 ^ f.m
  let ex := code / 2 ^ f.m % 2 ^ f.e
  let s := f.s && bitAt code (f.e + f.m)
  if f.nznan && s && ex == 0 && fr == 0 then .nan false
  else if f.spec == 1 && ex == 2 ^ f.e - 1 && fr == 2 ^ f.m - 1 then .nan false
  else if f.spec == 2 && ex == 2 ^ f.e - 1 then
    if fr == 0 then .inf s else .nan (ieee && !bitAt fr (f.m - 1))
  else if ex == 0 then .num s fr (1 - f.bias - f.m)
  else .num s (2 ^ f.m + fr) (ex - f.bias - f.m)

/-- An element of a standard type. -/
def fpDecode (t : FpTy) (code : Nat) : FVal := fdecode (fpFmt t) true code

/-- The largest magnitude code that is finite (R96). -/
def FFmt.maxCode (f : FFmt) : Nat :=
  if f.spec == 2 then (2 ^ f.e - 1) * 2 ^ f.m - 1
  else if f.spec == 1 then 2 ^ (f.e + f.m) - 2
  else 2 ^ (f.e + f.m) - 1

/-- emax: floor(log2(maxfinite)) (R96); 0 for a format whose only finite value is zero. -/
def FFmt.emax (f : FFmt) : Int :=
  let c := f.maxCode
  let ex := c / 2 ^ f.m
  if ex == 0 then (if c == 0 then 0 else 1 - f.bias - f.m + Nat.log2 c) else ex - f.bias

/-- The canonical NaN code, if the format has one (R97). -/
def FFmt.nanCode (f : FFmt) : Option Nat :=
  if f.spec == 1 then some (2 ^ (f.e + f.m) - 1)
  else if f.spec == 2 && decide (1 ≤ f.m) then some ((2 ^ f.e - 1) * 2 ^ f.m + 2 ^ (f.m - 1))
  else if f.nznan then some (2 ^ (f.e + f.m))
  else none

/-- Has the format infinities and may a result overflow to them (R101)? -/
def FFmt.hasInf (f : FFmt) : Bool := f.spec == 2

def FFmt.infCode (f : FFmt) : Nat := (2 ^ f.e - 1) * 2 ^ f.m

/-- Put the sign on a magnitude code; −0 becomes +0 where the format has no −0 (R102). -/
def FFmt.sign (f : FFmt) (neg : Bool) (mag : Nat) : Nat :=
  if neg && f.s && !(f.nznan && mag == 0) then 2 ^ (f.e + f.m) + mag else mag

/-- The rounding modes (R99). -/
inductive RMode where
  | rne | rtz | rdn | rup | rmm | sr
deriving DecidableEq, Repr

def rmodeOf (m : BitVec 3) : RMode :=
  match m.toNat with
  | 0 => .rne | 1 => .rtz | 2 => .rdn | 3 => .rup | 4 => .rmm | _ => .sr

/-- SR acts as RNE (R104: VFSUMR, SFU instructions). -/
def RMode.noSr : RMode → RMode
  | .sr => .rne
  | m => m

/-- Round m × 2^d, d negative or not, to an integer (R100): the integer, and whether it is exact. -/
def roundInt (mode : RMode) (neg : Bool) (r : Nat) (m : Nat) (d : Int) : Nat × Bool :=
  if 0 ≤ d then (m * 2 ^ d.toNat, true)
  else
    let k := (-d).toNat
    let lo := m / 2 ^ k
    let rem := m % 2 ^ k
    if rem == 0 then (lo, true)
    else
      let up := match mode with
        | .rne => if 2 * rem < 2 ^ k then false else if 2 ^ k < 2 * rem then true else lo % 2 == 1
        | .rtz => false
        | .rdn => neg
        | .rup => !neg
        | .rmm => decide (2 ^ k ≤ 2 * rem)
        | .sr => decide (r < rem * 2 ^ 24 / 2 ^ k)
      (if up then lo + 1 else lo, false)

/-- round(x, fmt, mode) for the non-zero x = (−1)^neg × m × 2^e (R100, R101): the code and the flags. -/
def fround (f : FFmt) (mode : RMode) (r : Nat) (neg : Bool) (m : Nat) (e : Int) : Nat × FFlags :=
  let k : Int := Nat.log2 m + e
  let emin : Int := 1 - f.bias
  let ee : Int := if f.e == 0 then emin else max k emin
  let q : Int := ee - f.m
  let (n, exact) := roundInt mode neg r m (e - q)
  let mag : Nat := if n == 0 then 0 else (ee - emin).toNat * 2 ^ f.m + n
  if !f.s && neg && n != 0 then (0, .nv)
  else if f.maxCode < mag then
    let toInf := f.hasInf && f.ovinf && (match mode with
      | .rtz => false
      | .rdn => neg
      | .rup => !neg
      | _ => true)
    (f.sign neg (if toInf then f.infCode else f.maxCode), .nx ||| .of)
  else
    let tiny :=
      if f.e == 0 then n == 0 || (roundInt .rtz neg r m (e - q)).1 == 0
      else decide (k < emin) && !(k == emin - 1 && (roundInt mode neg r m (e - (k - f.m))).1 == 2 ^ (f.m + 1))
    (f.sign neg mag, if exact then 0 else if tiny then .nx ||| .uf else .nx)

/-- Encode a value (R100-R103). -/
def fencode (f : FFmt) (mode : RMode) (r : Nat) : FVal → Nat × FFlags
  | .nan sig =>
    match f.nanCode with
    | some c => (c, if sig then .nv else 0)
    | none => (0, .nv)
  | .inf neg =>
    if neg && !f.s then (0, .nv)
    else if f.hasInf then (f.sign neg f.infCode, 0)
    else (f.sign neg f.maxCode, .nv)
  | .num neg m e => if m == 0 then (f.sign neg 0, 0) else fround f mode r neg m e

/-! ### Exact operations on values -/

/-- Signed sum of two dyadics; the sign of an exact zero sum by R102. -/
def dyAdd (mode : RMode) (n1 : Bool) (m1 : Nat) (e1 : Int) (n2 : Bool) (m2 : Nat) (e2 : Int) : FVal :=
  let e := min e1 e2
  let a : Int := (m1 * 2 ^ (e1 - e).toNat : Nat)
  let b : Int := (m2 * 2 ^ (e2 - e).toNat : Nat)
  let s := (if n1 then -a else a) + (if n2 then -b else b)
  if s == 0 then
    if m1 == 0 && m2 == 0 && n1 == n2 then .num n1 0 0 else .num (mode == .rdn) 0 0
  else .num (decide (s < 0)) s.natAbs e

def FVal.isSig : FVal → Bool
  | .nan s => s
  | _ => false

def FVal.isNan : FVal → Bool
  | .nan _ => true
  | _ => false

def FVal.neg : FVal → FVal
  | .nan s => .nan s
  | .inf n => .inf (!n)
  | .num n m e => .num (!n) m e

/-- Sum (R110): the exact value and NV. -/
def fvAdd (mode : RMode) (a b : FVal) : FVal × FFlags :=
  let sig : FFlags := if a.isSig || b.isSig then .nv else 0
  match a, b with
  | .nan _, _ => (.nan false, sig)
  | _, .nan _ => (.nan false, sig)
  | .inf s, .inf t => if s == t then (.inf s, 0) else (.nan false, .nv)
  | .inf s, _ => (.inf s, 0)
  | _, .inf t => (.inf t, 0)
  | .num n1 m1 e1, .num n2 m2 e2 => (dyAdd mode n1 m1 e1 n2 m2 e2, 0)

/-- Product (R110). -/
def fvMul (a b : FVal) : FVal × FFlags :=
  let sig : FFlags := if a.isSig || b.isSig then .nv else 0
  match a, b with
  | .nan _, _ => (.nan false, sig)
  | _, .nan _ => (.nan false, sig)
  | .inf s, .inf t => (.inf (s != t), 0)
  | .inf s, .num n m _ => if m == 0 then (.nan false, .nv) else (.inf (s != n), 0)
  | .num n m _, .inf t => if m == 0 then (.nan false, .nv) else (.inf (n != t), 0)
  | .num n1 m1 e1, .num n2 m2 e2 => (.num (n1 != n2) (m1 * m2) (e1 + e2), 0)

/-- d + a × b with one rounding (R110): 0 × Inf is invalid even when d is NaN. -/
def fvFma (mode : RMode) (d a b : FVal) : FVal × FFlags :=
  let (p, pf) := fvMul a b
  let (s, sf) := fvAdd mode d p
  (s, pf ||| sf)

/-- The order of two numbers, −0 below +0 when `signedZero`. -/
def fvLt (signedZero : Bool) (a b : FVal) : Bool :=
  match a, b with
  | .nan _, _ => false
  | _, .nan _ => false
  | .inf s, .inf t => s && !t
  | .inf s, _ => s
  | _, .inf t => !t
  | .num n1 m1 e1, .num n2 m2 e2 =>
    if m1 == 0 && m2 == 0 then signedZero && n1 && !n2
    else
      let e := min e1 e2
      let x : Int := (m1 * 2 ^ (e1 - e).toNat : Nat)
      let y : Int := (m2 * 2 ^ (e2 - e).toNat : Nat)
      decide ((if n1 then -x else x) < (if n2 then -y else y))

/-- Equality of two numbers, +0 equal to −0. -/
def fvEq (a b : FVal) : Bool := !a.isNan && !b.isNan && !fvLt false a b && !fvLt false b a

/-- minimumNumber and maximumNumber (R110). -/
def fvMin (a b : FVal) : FVal × FFlags :=
  let sig : FFlags := if a.isSig || b.isSig then .nv else 0
  if a.isNan then (if b.isNan then (.nan false, sig) else (b, sig))
  else if b.isNan then (a, sig)
  else (if fvLt true b a then b else a, 0)

def fvMax (a b : FVal) : FVal × FFlags :=
  let sig : FFlags := if a.isSig || b.isSig then .nv else 0
  if a.isNan then (if b.isNan then (.nan false, sig) else (b, sig))
  else if b.isNan then (a, sig)
  else (if fvLt true a b then b else a, 0)

/-- Multiply by a power of two. -/
def FVal.scale (k : Int) : FVal → FVal
  | .num n m e => .num n m (e + k)
  | v => v

/-- Round an operation's exact value (R100-R103), joining its own flags. -/
def fvRound (f : FFmt) (mode : RMode) (r : Nat) (x : FVal × FFlags) : Nat × FFlags :=
  let (c, fl) := fencode f mode r x.1
  (c, fl ||| x.2)

/-! ### Block scales (R112, R113) -/

/-- floor(log2 |x|) of a non-zero number. -/
def FVal.log2 : FVal → Int
  | .num _ m e => Nat.log2 m + e
  | _ => 0

/-- scalesel (R113). -/
def scalesel (xs : List FVal) (f : FFmt) : Nat :=
  if xs.any (fun x => match x with | .num _ _ _ => false | _ => true) then 255
  else
    match xs.filter (fun x => match x with | .num _ m _ => m != 0 | _ => false) with
    | [] => 127
    | y :: ys =>
      let k := ys.foldl (fun acc x => max acc x.log2) y.log2
      (max (-127) (min 127 (k - f.emax)) + 127).toNat

/-! ### Sums in a fixed order (R114-R118) -/

/-- The pairwise tree over leaves whose number is a power of two (R117). -/
def treeLevel {α : Type} (op : α → α → α) : List α → List α
  | a :: b :: l => op a b :: treeLevel op l
  | l => l

/-- tree() within a number of levels. -/
def treeSum {α : Type} (op : α → α → α) (d : α) : Nat → List α → α
  | _, [] => d
  | _, [a] => a
  | 0, a :: _ => a
  | k + 1, l => treeSum op d k (treeLevel op l)

/-- The exact sum of finite values as a signed dyadic at a common exponent. -/
def exactSum (vs : List FVal) : Int × Int :=
  let e := vs.foldl (fun acc v => match v with | .num _ _ x => min acc x | _ => acc) 0
  (vs.foldl (fun acc v => match v with
    | .num n m x => let a : Int := (m * 2 ^ (x - e).toNat : Nat); if n then acc - a else acc + a
    | _ => acc) 0, e)

/-- GRED FADDS over the contributions of a superstep (R114): the FP32 code and flags. -/
def fsumExact (vs : List FVal) : Nat × FFlags :=
  let sig : FFlags := if vs.any FVal.isSig then .nv else 0
  let pinf := vs.any (· == .inf false)
  let ninf := vs.any (· == .inf true)
  if pinf && ninf then (0x7FC00000, .nv)
  else if vs.any FVal.isNan then (0x7FC00000, sig)
  else if pinf then (0x7F800000, 0)
  else if ninf then (0xFF800000, 0)
  else
    let (s, e) := exactSum vs
    if s == 0 then
      (if vs != [] && vs.all (fun v => match v with | .num n m _ => n && m == 0 | _ => false) then 0x80000000 else 0, 0)
    else fround fp32 .rne 0 (decide (s < 0)) s.natAbs e

/-! ### Special functions (R120) -/

/-- The integer square root, from the top bit pair down. -/
def isqrtGo (n : Nat) : Nat → Nat → Nat
  | 0, r => r
  | k + 1, r =>
    let r' := r + 2 ^ k
    isqrtGo n k (if r' * r' ≤ n then r' else r)

def isqrt (n : Nat) : Nat := isqrtGo n (Nat.log2 n / 2 + 1) 0

/-- Make a quotient or root with a remainder into a dyadic just above it: one more bit, set when inexact. -/
def sticky (neg : Bool) (q : Nat) (exact : Bool) (e : Int) : FVal := .num neg (2 * q + b01 (!exact)) (e - 1)

/-- a / b for finite non-zero operands, to 200 bits. -/
def dyDiv (n1 : Bool) (m1 : Nat) (e1 : Int) (n2 : Bool) (m2 : Nat) (e2 : Int) : FVal :=
  let k := 200 + Nat.log2 m2
  sticky (n1 != n2) (m1 * 2 ^ k / m2) (m1 * 2 ^ k % m2 == 0) (e1 - e2 - k)

/-- √a for finite a > 0, to at least 200 bits. -/
def dySqrt (m : Nat) (e : Int) : FVal :=
  let k : Nat := 400 + (e % 2).toNat
  let n := m * 2 ^ k
  let r := isqrt n
  sticky false r (r * r == n) ((e - k) / 2)

/-- 1/√a for finite a > 0. -/
def dyRsqrt (m : Nat) (e : Int) : FVal :=
  let m' := if e % 2 == 0 then m else 2 * m
  let e' := if e % 2 == 0 then e else e - 1
  let k := 300 + Nat.log2 m'
  let r := isqrt (2 ^ (2 * k) / m')
  sticky false r (r * r * m' == 2 ^ (2 * k)) (-(e' / 2) - k)

/-- A non-negative number between two multiples of 2^-640. -/
structure Iv where
  lo : Nat
  hi : Nat
deriving DecidableEq, Repr

def ivP : Nat := 640

def Iv.mul (a b : Iv) : Iv := { lo := a.lo * b.lo / 2 ^ ivP, hi := a.hi * b.hi / 2 ^ ivP + 1 }
def Iv.add (a b : Iv) : Iv := { lo := a.lo + b.lo, hi := a.hi + b.hi }
def Iv.divNat (a : Iv) (n : Nat) : Iv := { lo := a.lo / n, hi := a.hi / n + 1 }
def Iv.div (a b : Iv) : Iv := { lo := a.lo * 2 ^ ivP / b.hi, hi := a.hi * 2 ^ ivP / b.lo + 1 }
def Iv.one : Iv := { lo := 2 ^ ivP, hi := 2 ^ ivP }

/-- atanh z = Σ z^(2k+1)/(2k+1) for 0 ≤ z ≤ 1/3, 210 terms; the tail is below 2^-640. -/
def ivAtanhGo (z2 : Iv) : Nat → Nat → Iv → Iv → Iv
  | 0, _, _, acc => { lo := acc.lo, hi := acc.hi + 2 }
  | n + 1, k, pw, acc => ivAtanhGo z2 n (k + 2) (pw.mul z2) (acc.add (pw.divNat k))

def ivAtanh (z : Iv) : Iv := ivAtanhGo (z.mul z) 210 1 z { lo := 0, hi := 0 }

/-- ln 2 = 2 atanh(1/3). -/
def ivLn2 : Iv :=
  let a := ivAtanh { lo := 2 ^ ivP / 3, hi := 2 ^ ivP / 3 + 1 }
  { lo := 2 * a.lo, hi := 2 * a.hi }

/-- e^x for 0 ≤ x ≤ 1: 140 terms; the tail is below 2^-640. -/
def ivExpGo (x : Iv) : Nat → Nat → Iv → Iv → Iv
  | 0, _, _, acc => { lo := acc.lo, hi := acc.hi + 2 }
  | n + 1, k, term, acc => ivExpGo x n (k + 1) ((term.mul x).divNat k) (acc.add term)

def ivExp (x : Iv) : Iv := ivExpGo x 140 1 .one { lo := 0, hi := 0 }

/-- The code and flags of a value strictly between lo × 2^e and hi × 2^e: decided when both ends round alike, else by a
free value (log entry 6). `tag` names the function and operand. -/
def roundIv (f : FFmt) (mode : RMode) (neg : Bool) (v : Iv) (e : Int) (fn : Nat) (code : Nat) : Nat × FFlags :=
  let a := fround f mode 0 neg (2 * v.lo + 1) (e - ivP - 1)
  let b := fround f mode 0 neg (2 * v.hi - 1) (e - ivP - 1)
  if a == b then a else if Config.sfuUndecided fn code f.m f.e then a else b

/-- 2^a for a finite non-integer a: 2^i × e^(f ln 2) (R120). -/
def sfuExp2 (f : FFmt) (mode : RMode) (n : Bool) (m : Nat) (e : Int) (code : Nat) : Nat × FFlags :=
  let whole : Nat := if 0 ≤ e then m * 2 ^ (min e 20).toNat else m / 2 ^ (-e).toNat
  let exact : Bool := decide (0 ≤ e) || m % 2 ^ (-e).toNat == 0
  let w : Int := min whole 4000
  if exact then fround f mode 0 false 1 (if n then -w else w)
  else if whole ≥ 4000 then fround f mode 0 false 3 (if n then -4000 else 4000)
  else
    let fr := m % 2 ^ (-e).toNat
    let frac : Nat := if n then 2 ^ (-e).toNat - fr else fr
    let i : Int := if n then -w - 1 else w
    let x : Nat := if (-e).toNat ≤ ivP then frac * 2 ^ (ivP - (-e).toNat) else frac / 2 ^ ((-e).toNat - ivP)
    roundIv f mode false (ivExp (Iv.mul { lo := x, hi := x + b01 (decide (ivP < (-e).toNat)) } ivLn2)) i 0 code

/-- log2 of a finite a > 0 (R120). -/
def sfuLog2 (f : FFmt) (mode : RMode) (m : Nat) (e : Int) (code : Nat) : Nat × FFlags :=
  let k : Int := Nat.log2 m + e
  if m == 2 ^ Nat.log2 m then
    if k == 0 then (0, 0) else fround f mode 0 (decide (k < 0)) k.natAbs 0
  else
    -- a = 2^k y, 1 < y < 2; for k < 0 the result is −(|k| − log2 y)
    let p := 2 ^ Nat.log2 m
    let num := (m - p) * 2 ^ ivP
    let z : Iv := { lo := num / (m + p), hi := num / (m + p) + 1 }
    let at2 := ivAtanh z
    let l : Iv := Iv.div { lo := 2 * at2.lo, hi := 2 * at2.hi } ivLn2
    if 0 ≤ k then roundIv f mode false { lo := k.toNat * 2 ^ ivP + l.lo, hi := k.toNat * 2 ^ ivP + l.hi } 0 1 code
    else roundIv f mode true { lo := (-k).toNat * 2 ^ ivP - l.hi, hi := (-k).toNat * 2 ^ ivP - l.lo } 0 1 code

/-- tanh of a finite non-zero a: (E − 1)/(E + 1), E = e^(2|a|), below 1 (R120). -/
def sfuTanh (f : FFmt) (mode : RMode) (n : Bool) (m : Nat) (e : Int) (code : Nat) : Nat × FFlags :=
  if decide ((9 : Int) ≤ Nat.log2 m + e) then fround f mode 0 n (2 ^ 700 - 1) (-700)
  else
    let d := (-(e + 1)).toNat
    let x : Iv := if 0 ≤ e + 1 then { lo := m * 2 ^ (e + 1).toNat * 2 ^ ivP, hi := m * 2 ^ (e + 1).toNat * 2 ^ ivP }
      else if d ≤ ivP then { lo := m * 2 ^ (ivP - d), hi := m * 2 ^ (ivP - d) }
      else { lo := m / 2 ^ (d - ivP), hi := m / 2 ^ (d - ivP) + 1 }
    let q := x.lo / ivLn2.hi
    let r : Iv := { lo := x.lo - q * ivLn2.hi, hi := x.hi - q * ivLn2.lo }
    let g := ivExp r
    let big : Iv := { lo := g.lo * 2 ^ q, hi := g.hi * 2 ^ q }
    let t := Iv.div { lo := big.lo - 2 ^ ivP, hi := big.hi - 2 ^ ivP } { lo := big.lo + 2 ^ ivP, hi := big.hi + 2 ^ ivP }
    roundIv f mode n { t with hi := min t.hi (2 ^ ivP) } 0 2 code

/-- The seven SFU functions by vop6 (R120, R197): operands as codes of the element type. -/
def sfuFn (fn : Nat) (t : FpTy) (mode : RMode) (ca cb : Nat) : Nat × FFlags :=
  let f := fpFmt t
  let nan : Nat := match f.nanCode with | some c => c | none => 0
  let a := fpDecode t ca
  let b := fpDecode t cb
  let sig : FFlags := if a.isSig || (fn == 0x13 && b.isSig) then .nv else 0
  if a.isNan || (fn == 0x13 && b.isNan) then (nan, sig)
  else match fn with
    | 0x10 => match a with
      | .num n m e => if m == 0 then (f.sign n f.infCode, .dz) else fencode f mode 0 (dyDiv false 1 0 n m e)
      | .inf n => (f.sign n 0, 0)
      | .nan _ => (nan, 0)
    | 0x11 => match a with
      | .num n m e => if m == 0 then (f.sign n f.infCode, .dz) else if n then (nan, .nv) else fencode f mode 0 (dyRsqrt m e)
      | .inf n => if n then (nan, .nv) else (0, 0)
      | .nan _ => (nan, 0)
    | 0x12 => match a with
      | .num n m e => if m == 0 then (f.sign n 0, 0) else if n then (nan, .nv) else fencode f mode 0 (dySqrt m e)
      | .inf n => if n then (nan, .nv) else (f.infCode, 0)
      | .nan _ => (nan, 0)
    | 0x13 => match a, b with
      | .inf _, .inf _ => (nan, .nv)
      | .inf s, .num n _ _ => (f.sign (s != n) f.infCode, 0)
      | .num n _ _, .inf s => (f.sign (n != s) 0, 0)
      | .num n1 m1 e1, .num n2 m2 e2 =>
        if m1 == 0 && m2 == 0 then (nan, .nv)
        else if m2 == 0 then (f.sign (n1 != n2) f.infCode, .dz)
        else if m1 == 0 then (f.sign (n1 != n2) 0, 0)
        else fencode f mode 0 (dyDiv n1 m1 e1 n2 m2 e2)
      | _, _ => (nan, 0)
    | 0x14 => match a with
      | .num n m e => if m == 0 then fround f mode 0 false 1 0 else sfuExp2 f mode n m e ca
      | .inf n => if n then (0, 0) else (f.infCode, 0)
      | .nan _ => (nan, 0)
    | 0x15 => match a with
      | .num n m e => if m == 0 then (f.sign true f.infCode, .dz) else if n then (nan, .nv) else sfuLog2 f mode m e ca
      | .inf n => if n then (nan, .nv) else (f.infCode, 0)
      | .nan _ => (nan, 0)
    | _ => match a with
      | .num n m e => if m == 0 then (f.sign n 0, 0) else sfuTanh f mode n m e ca
      | .inf n => fround f mode 0 n 1 0
      | .nan _ => (nan, 0)

end Sys2Proof.Machine
end

