-- ==== Sys2Proof/Machine/Space.lean ====
section
/-!
DEFINITION. Access to the tables of the state, the address map (R46), translation (R62, R63), the version a global read
returns (R74, R80, R81), the event log (R365) and the shadow pool (R64).
-/

namespace Sys2Proof.Machine

open Sys2Proof

/-! ### The tables of the state -/

def State.task (s : State) (k : Slot) : Task := Tab.get s.tasks .zero k
def State.setTask (s : State) (k : Slot) (t : Task) : State := { s with tasks := Tab.put s.tasks k t }
def State.modTask (s : State) (k : Slot) (f : Task → Task) : State := s.setTask k (f (s.task k))
def State.tile (s : State) (l t : Nat) : Tile := Tab.get s.tiles .zero (l, t)
def State.setTile (s : State) (l t : Nat) (x : Tile) : State := { s with tiles := Tab.put s.tiles (l, t) x }
def State.modTile (s : State) (l t : Nat) (f : Tile → Tile) : State := s.setTile l t (f (s.tile l t))
def State.launch (s : State) (l : Nat) : Launch := Tab.get s.launches .zero l
def State.setLaunch (s : State) (l : Nat) (x : Launch) : State := { s with launches := Tab.put s.launches l x }
def State.modLaunch (s : State) (l : Nat) (f : Launch → Launch) : State := s.setLaunch l (f (s.launch l))
def Launch.onPkg (x : Launch) (p : Nat) : LPkg := Tab.get x.lp .zero p
def State.lpkg (s : State) (l p : Nat) : LPkg := (s.launch l).onPkg p
def State.modLpkg (s : State) (l p : Nat) (f : LPkg → LPkg) : State :=
  s.modLaunch l fun x => { x with lp := Tab.put x.lp p (f (x.onPkg p)) }
def State.pkg (s : State) (p : Nat) : Pkg := Tab.get s.pkgs .zero p
def State.setPkg (s : State) (p : Nat) (x : Pkg) : State := { s with pkgs := Tab.put s.pkgs p x }
def State.modPkg (s : State) (p : Nat) (f : Pkg → Pkg) : State := s.setPkg p (f (s.pkg p))
def State.handler (s : State) (p phys : Nat) : Handler := Tab.get s.handlers .zero (p, phys % 2048)
def State.setHandler (s : State) (p phys : Nat) (h : Handler) : State := { s with handlers := Tab.put s.handlers (p, phys % 2048) h }
def State.cmp (s : State) (p phys : Nat) : Cmps := Tab.get s.cmps .zero (p, phys % 2048)
def State.setCmp (s : State) (p phys : Nat) (c : Cmps) : State := { s with cmps := Tab.put s.cmps (p, phys % 2048) c }
def State.tick (s : State) : State := { s with free := s.free + 1 }

def Pkg.dom (x : Pkg) (d : Nat) : Dom := x.doms[d % 4]
def Pkg.setDom (x : Pkg) (d : Nat) (v : Dom) : Pkg := { x with doms := x.doms.set (d % 4) v }
def State.modDom (s : State) (p d : Nat) (f : Dom → Dom) : State := s.modPkg p fun x => x.setDom d (f (x.dom d))
def Dom.queue (x : Dom) (q : Nat) : Queue := x.queues[q % 8]
def Dom.setQueue (x : Dom) (q : Nat) (v : Queue) : Dom := { x with queues := x.queues.set (q % 8) v }
def State.modQueue (s : State) (p d q : Nat) (f : Queue → Queue) : State := s.modDom p d fun x => x.setQueue q (f (x.queue q))

/-- The package field of a physical tile id (R18). -/
def physPkg (phys : Nat) : Nat := bits phys 11 8
def physDie (phys : Nat) : Nat := bits phys 8 3
def physCluster (phys : Nat) : Nat := bits phys 4 4
def physTile (phys : Nat) : Nat := bits phys 0 4
def physId (pkg die cluster tile : Nat) : Nat := pkg % 256 * 2048 + die * 256 + cluster * 16 + tile

/-- The fields of a pairing entry; the other bits are reserved and read 0 (R291, R4). -/
def pairMask : BitVec 64 := 0x1F1F

/-- A tile is usable when its harvest bit is 1 (R17, R371). -/
def Pkg.usable (x : Pkg) (die cluster tile : Nat) : Bool := x.harvest[die % 8].getLsbD (16 * cluster + tile)

/-- The package on which a logical tile runs. -/
def State.tilePkg (s : State) (l t : Nat) : Nat := physPkg (s.tile l t).phys

/-- Flags of a descriptor (R10). -/
def Desc.det (d : Desc) : Bool := d.flags.getLsbD 0
def Desc.replay (d : Desc) : Bool := d.flags.getLsbD 1
def Desc.conftrap (d : Desc) : Bool := d.flags.getLsbD 2
def Desc.elastic (d : Desc) : Bool := d.flags.getLsbD 3
def Desc.prio (d : Desc) : Nat := bits d.flags.toNat 8 3
/-- The launch's STALLCHK floor: the descriptor's, raised to 1 in a DET launch (R139). -/
def Desc.floor (d : Desc) : Nat := let f := bits d.flags.toNat 4 2; if d.det && f == 0 then 1 else f
/-- The addressable TM: 2 MiB − k × 128 KiB (R13). -/
def Desc.tmSize (d : Desc) : Nat := 0x200000 - d.pool * 0x20000
/-- Abort limit: 0 selects 3 (R10). -/
def Desc.limit (d : Desc) : Nat := if d.abortLimit == 0 then 3 else d.abortLimit

/-! ### The address map (R46) -/

inductive Region where
  | own (off : Nat)
  | peer (tile off : Nat)
  | devInfo (off : Nat)
  | l2p (off : Nat)
  | glob
  | handlerWin
  | none
deriving DecidableEq, Repr

def globLo : Nat := 0x100000210000
def globHi : Nat := 0x800000000000

/-- A VA in the global range (R46). -/
def isGlob (va : Nat) : Bool := decide (globLo ≤ va) && decide (va < globHi)

/-- The region of a byte address, for a launch's TM size and tile count (R46). -/
def regionOf (tmSize ntile : Nat) (va : Nat) : Region :=
  if va < tmSize then .own va
  else if 0x10000000000 ≤ va ∧ va < 0x10000000000 + ntile * 0x200000 then
    let r := va - 0x10000000000
    if r % 0x200000 < tmSize then .peer (r / 0x200000) (r % 0x200000) else .none
  else if 0x100000000000 ≤ va ∧ va < 0x100000010000 then .devInfo (va - 0x100000000000)
  else if 0x100000010000 ≤ va ∧ va < globLo then .l2p (va - 0x100000010000)
  else if isGlob va then .glob
  else if 0xFFFFF00000000000 ≤ va then .handlerWin
  else .none

/-- Regions that a piece may not mix (R214). -/
def Region.tag : Region → Nat × Nat
  | .own _ => (0, 0) | .peer t _ => (1, t) | .devInfo _ => (2, 0) | .l2p _ => (3, 0) | .glob => (4, 0) | .handlerWin => (5, 0) | .none => (6, 0)

/-! ### Translation (R62, R63) -/

/-- A level-0 or level-1 entry: [0] valid, [51:16] the next level, every other bit zero. -/
def tableNext (e : Nat) : Option Nat :=
  if e % 2 == 1 && bits e 1 15 == 0 && bits e 52 12 == 0 then some (bits e 16 36 * 65536) else none

/-- The three-level walk to the level-2 entry. -/
def walk (m : Memory) (root va : Nat) : Option Nat := do
  let l1 ← tableNext (m.nat (root + 8 * bits va 40 7) 8)
  let l2 ← tableNext (m.nat (l1 + 8 * bits va 28 12) 8)
  pure (m.nat (l2 + 8 * bits va 16 12) 8)

/-- The address of the level-2 entry a walk ends at. -/
def walkAddr (m : Memory) (root va : Nat) : Option Nat := do
  let l1 ← tableNext (m.nat (root + 8 * bits va 40 7) 8)
  let l2 ← tableNext (m.nat (l1 + 8 * bits va 28 12) 8)
  pure (l2 + 8 * bits va 16 12)

def pteV (e : Nat) : Bool := bitAt e 0
def pteW (e : Nat) : Bool := bitAt e 1
def pteRed (e : Nat) : Bool := bitAt e 2
def ptePeer (e : Nat) : Bool := bitAt e 3
def pteScale (e : Nat) : Nat := bits e 4 8
def ptePa (e : Nat) : Nat := bits e 16 36
def pteSec (e : Nat) : Bool := bitAt e 52
def pteDom (e : Nat) : Nat := bits e 53 10

/-- An entry that a walk accepts for a domain (R63). -/
def pteOk (e dom : Nat) : Bool :=
  pteV e && bits e 12 4 == 0 && bits e 63 1 == 0 && !(pteRed e && ptePeer e) &&
    (ptePeer e || pteRed e || pteScale e == 0) && pteDom e == dom

/-- A page as a package sees it: the package that holds it and its physical page number. -/
structure Page where
  home : Nat
  ppn : Nat
  pte : Nat
deriving DecidableEq, Repr

def pageOf (p e : Nat) : Page := { home := if ptePeer e then pteScale e else p, ppn := ptePa e, pte := e }

/-- The translation of a VA in package `p`'s view of a domain, as the tables stand; an address outside the global range has none
(R46). -/
def State.xlateDom (s : State) (p d va : Nat) : Option Page :=
  match (if isGlob va then walk (s.pkg p).hbm ((s.pkg p).dom d).cfg.root va else none) with
  | some e => if pteOk e d then some (pageOf p e) else none
  | none => none

/-- The translation a running launch sees: firmware's changes since its superstep began are not seen yet (R63). -/
def State.xlate (s : State) (l p va : Nat) : Option Page :=
  let x := s.launch l
  match Tab.find x.ptOld (p, va / 65536) with
  | some e => if pteOk e.toNat x.dom then some (pageOf p e.toNat) else none
  | none => s.xlateDom p x.dom va

/-- The region table admits a physical page to a domain's non-secure access (R366). -/
def regionOk (rs : List (BitVec 64)) (ppn dom : Nat) : Bool :=
  rs.any fun r => bitAt r.toNat 0 && !bitAt r.toNat 1 && bits r.toNat 2 2 == dom &&
    decide (bits r.toNat 16 24 ≤ ppn) && decide (ppn < bits r.toNat 16 24 + bits r.toNat 40 24)

def State.physOk (s : State) (g : Page) (dom : Nat) : Bool := regionOk (s.pkg g.home).regions g.ppn dom

/-- The PTE of the same page in its home package's view, when the home has one. -/
def State.homePte (s : State) (l : Nat) (g : Page) (va : Nat) : Nat :=
  match s.xlate l g.home va with
  | some h => h.pte
  | none => 0

/-- A reduction page in the issuing package's sense (R246). -/
def State.isRed (s : State) (l : Nat) (g : Page) (va : Nat) : Bool :=
  pteRed g.pte || (ptePeer g.pte && pteRed (s.homePte l g va))

/-- The scale exponent of a reduction page (R80). -/
def State.redScale (s : State) (l : Nat) (g : Page) (va : Nat) : Int :=
  sint 8 (if pteRed g.pte then pteScale g.pte else pteScale (s.homePte l g va))

/-- An address inside the launch's counter region (R81). -/
def Launch.inCounters (x : Launch) (va : Nat) : Bool :=
  x.desc.ctrCount != 0 && decide (x.desc.ctrVa.toNat ≤ va) && decide (va < x.desc.ctrVa.toNat + 8 * x.desc.ctrCount)

/-! ### What reads return -/

/-- Part string "ILK2048" and a zero byte (R359, R371). -/
def partName : List Byte := [0x49, 0x4C, 0x4B, 0x32, 0x30, 0x34, 0x38, 0]

def Pkg.usableCount (x : Pkg) (die : Nat) : Nat := ((List.range 256).filter fun i => x.harvest[die % 8].getLsbD i).length

/-- A die in service: its map holds a usable tile (R16, R371). -/
def Pkg.dieUp (x : Pkg) (die : Nat) : Bool := x.harvest[die % 8] != 0

/-- The device information page (R371); published by the census (R368 step 6). -/
def Pkg.devInfo (x : Pkg) (p off : Nat) : Byte :=
  if x.boot.step < 7 then 0
  else if off < 8 then partName.getD off 0
  else if off == 8 then 1
  else if 0x10 ≤ off ∧ off < 0x14 then BitVec.ofNat 8 (p / 256 ^ (off - 0x10))
  else if off == 0x14 then BitVec.ofNat 8 ((List.range 8).foldl (fun a d => a + b01 (x.dieUp d) * 2 ^ d) 0)
  else if 0x18 ≤ off ∧ off < 0x1C then BitVec.ofNat 8 (vlenb / 256 ^ (off - 0x18))
  else if 0x1C ≤ off ∧ off < 0x20 then BitVec.ofNat 8 (850000 / 256 ^ (off - 0x1C))
  else if 0x40 ≤ off ∧ off < 0x140 then (x.harvest[(off - 0x40) / 32 % 8]).extractLsb' (8 * ((off - 0x40) % 32)) 8
  else if 0x140 ≤ off ∧ off < 0x150 then BitVec.ofNat 8 (x.usableCount ((off - 0x140) / 2) / 256 ^ ((off - 0x140) % 2))
  else 0

/-- The L2P page (R18). -/
def State.l2pByte (s : State) (l off : Nat) : Byte :=
  if off < 4 * (s.launch l).desc.ntile then
    let x := s.tile l (off / 4)
    BitVec.ofNat 8 ((x.phys % 2 ^ 19 + x.wave * 2 ^ 24) / 256 ^ (off % 4))
  else 0

/-- The committed byte of a physical page at its home; on another package than a host write's, a line whose notices are
still to come may be any of the old ones that it has been since the first of them (R79). -/
def State.physByte (s : State) (reader home ppn off : Nat) : Byte :=
  match (s.pkg reader).stale.filter (fun e => e.1 == home && e.2.1 == ppn * 1024 + off / 64) with
  | [] => Memory.get (s.pkg home).hbm (ppn * 65536 + off)
  | e :: es => match (e :: es)[Config.staleLine (ppn * 1024 + off / 64) s.free % (es.length + 2)]? with
    | some old => Memory.get old.2.2 (off % 64)
    | none => Memory.get (s.pkg home).hbm (ppn * 65536 + off)

/-- The byte a read by launch `l` on package `p` returns at a non-TM address (R46, R74, R80, R81). -/
def State.globByte (s : State) (l p va : Nat) : Byte :=
  let x := s.launch l
  match regionOf x.desc.tmSize x.desc.ntile va with
  | .devInfo off => (s.pkg p).devInfo p off
  | .l2p off => s.l2pByte l off
  | _ =>
    if x.inCounters va then Memory.get x.snap va
    else match s.xlate l p va with
      | some g => s.physByte p g.home g.ppn (va % 65536)
      | none => 0

/-- Committed TM of a logical tile (R56). -/
def State.tmByte (s : State) (l t off : Nat) : Byte := Memory.get (s.tile l t).tm off

/-- The task's own latest delta of a byte, if it has one (R55). -/
def ownDelta (ps : List Pend) (t i off : Nat) : Option Byte :=
  ps.foldl (fun acc p => match p.eff with
    | .tmWrite tgt own a bs =>
      if own && tgt == t && p.tile == t && p.task == i && decide (a ≤ off) && decide (off < a + bs.length) then bs[off - a]? else acc
    | _ => acc) none

/-- A load of own TM (R55). -/
def State.ownByte (s : State) (l t i off : Nat) : Byte :=
  match ownDelta (s.launch l).pends t i off with
  | some b => b
  | none => s.tmByte l t off

/-- `n` bytes of own TM as a load of the task. -/
def State.ownBytes (s : State) (l t i off n : Nat) : List Byte := (List.range n).map fun j => s.ownByte l t i (off + j)

/-- The byte a load of task `i` of tile `t` returns at an address (R168). -/
def State.loadByte (s : State) (l t i va : Nat) : Byte :=
  let x := s.launch l
  match regionOf x.desc.tmSize x.desc.ntile va with
  | .own off => s.ownByte l t i off
  | .peer tt off => s.tmByte l tt off
  | _ => s.globByte l (s.tilePkg l t) va

/-! ### Direct access of firmware and device to a domain's memory -/

/-- Write bytes at a VA through some translation, in place; bytes without one are dropped. -/
def State.writeVia (s : State) (tr : State → Nat → Option Page) (va : Nat) (bs : List Byte) : State :=
  (bs.zipIdx).foldl (fun s e =>
    match tr s (va + e.2) with
    | some g => s.modPkg g.home fun x => { x with hbm := x.hbm.write (g.ppn * 65536 + (va + e.2) % 65536) [e.1] }
    | none => s) s

/-- Read bytes at a VA through some translation on a package. -/
def State.readVia (s : State) (tr : Nat → Option Page) (p va n : Nat) : List Byte :=
  (List.range n).map fun j =>
    match tr (va + j) with
    | some g => s.physByte p g.home g.ppn ((va + j) % 65536)
    | none => 0

/-- Direct access through the domain's table as it stands. -/
def State.directWrite (s : State) (p d va : Nat) (bs : List Byte) : State := s.writeVia (fun s a => s.xlateDom p d a) va bs
def State.directRead (s : State) (p d va n : Nat) : List Byte := s.readVia (s.xlateDom p d) p va n

/-- Direct access on behalf of a running launch, through the translation that it sees (R63, R326). -/
def State.launchWrite (s : State) (l p va : Nat) (bs : List Byte) : State := s.writeVia (fun s a => s.xlate l p a) va bs
def State.launchRead (s : State) (l p va n : Nat) : List Byte := s.readVia (s.xlate l p) p va n

/-- Bytes at a VA as a launch sees it, as the homes of their pages hold them. -/
def State.homeRead (s : State) (l p va n : Nat) : List Byte :=
  (List.range n).map fun j =>
    match s.xlate l p (va + j) with
    | some g => Memory.get (s.pkg g.home).hbm (g.ppn * 65536 + (va + j) % 65536)
    | none => 0

/-- Every byte of a range has a translation readable by the domain: valid and not secure (R11, R14). -/
def State.readable (s : State) (p d va n : Nat) : Bool :=
  isGlob va && isGlob (va + n - 1) &&
    (List.range (n / 65536 + 2)).all fun j =>
      let a := min (va + 65536 * j) (va + n - 1)
      match s.xlateDom p d a with
      | some g => !pteSec g.pte && s.physOk g d
      | none => false

/-- As `readable`, and the pages are writable ordinary pages. -/
def State.writable (s : State) (p d va n : Nat) : Bool :=
  s.readable p d va n &&
    (List.range (n / 65536 + 2)).all fun j =>
      match s.xlateDom p d (min (va + 65536 * j) (va + n - 1)) with
      | some g => pteW g.pte && !pteRed g.pte
      | none => false

/-- Change every launch. -/
def State.mapLaunches (s : State) (f : Launch → Launch) : State := { s with launches := s.launches.map fun e => (e.1, f e.2) }

/-! ### Event logs and vectors -/

/-- A domain a package hosts. -/
def Pkg.hosts (x : Pkg) (d : Nat) : Bool := (x.dom d).configured

/-- Log an event in a domain's log: dropped and counted while the log is full (R365). -/
def State.logEvent (s : State) (p d type code : Nat) (launch : Word) (detail : List Byte) : State :=
  let x := (s.pkg p).dom d
  if 4096 ≤ x.evhead - x.evtail then s.modDom p d fun y => { y with evlost := y.evlost + 1 }
  else
    let body := (detail ++ List.replicate 40 0).take 40
    let rec_ := natLe 8 (Config.time s.free).toNat ++ natLe 2 type ++ natLe 2 0 ++ natLe 4 code ++ natLe 8 launch.toNat ++ body
    ((s.directWrite p d (x.cfg.eventLogVa.toNat + 64 * (x.evhead % 4096)) rec_).modDom p d fun y => { y with evhead := y.evhead + 1 }).tick

/-- Log an event of a package in the log of every domain it hosts (R365). -/
def State.logAll (s : State) (p type code : Nat) (detail : List Byte) : State :=
  (List.range 4).foldl (fun s d => if (s.pkg p).hosts d then s.logEvent p d type code 0 detail else s) s

/-- Issue an MSI-X vector (R363). -/
def State.msi (s : State) (p v : Nat) : State := s.modPkg p fun x => { x with msix := x.msix ++ [v] }

/-! ### Dirty pages (R380, R381, R387) -/

def Power.dirty (w : Power) : List Nat :=
  match w.dirtyNew with
  | none => w.dirtyOld
  | some n => dedup (w.dirtyOld ++ n)

def Power.dirtyBytes (w : Power) : Nat := 65536 * w.dirty.length

/-- While this holds, every launch on the package parks at its next barrier and none starts: level 7 is walked towards or in
force, or DIRTY has reached the drain ceiling (R311, R374, R376, R381). -/
def Pkg.parksAll (x : Pkg) : Bool := x.power.park7 || x.power.ceilPark

/-- After DIRTY changed from `before`: PWREVT.BUDGET and event 5 on a rise to DRAINBUD, PWREVT.CEILING and the ceiling
park on a rise to DRAINCAP, whose park ends when DIRTY falls below it (R381, R387). Vector 32 fires when a bit becomes 1. -/
def State.dirtyMoved (s : State) (p before : Nat) : State :=
  let w := (s.pkg p).power
  let now := w.dirtyBytes
  let s := if before < w.drainbud.toNat ∧ w.drainbud.toNat ≤ now then
      let fire := !w.evt.getLsbD 0
      let s := (s.modPkg p fun x => { x with power := { x.power with evt := x.power.evt ||| 1 } }).logAll p 5 0 (natLe 8 now)
      if fire then s.msi p 32 else s
    else s
  let s := if before < w.draincap.toNat ∧ w.draincap.toNat ≤ now then
      let fire := !w.evt.getLsbD 1
      let s := s.modPkg p fun x => { x with power := { x.power with evt := x.power.evt ||| 2 } }
      if fire then s.msi p 32 else s
    else s
  s.modPkg p fun x => { x with power := { x.power with
    ceilPark := decide (w.draincap.toNat ≤ now) && (x.power.ceilPark || decide (before < w.draincap.toNat)) } }

/-- A page homed in the package becomes dirty (R380). -/
def State.markDirty (s : State) (p ppn : Nat) : State :=
  let before := (s.pkg p).power.dirtyBytes
  let s := s.modPkg p fun x =>
    let w := x.power
    match w.dirtyNew with
    | some n => { x with power := { w with dirtyNew := some (if n.contains ppn then n else n ++ [ppn]) } }
    | none => { x with power := { w with dirtyOld := if w.dirtyOld.contains ppn then w.dirtyOld else w.dirtyOld ++ [ppn] } }
  s.dirtyMoved p before

/-- A flip moved a page to another physical page: it stays one page of the dirty sets (R380, R381). -/
def State.renameDirty (s : State) (p old ppn : Nat) : State :=
  let ren := fun (l : List Nat) => dedup (l.map fun n => if n == old then ppn else n)
  s.modPkg p fun x => { x with power := { x.power with dirtyOld := ren x.power.dirtyOld, dirtyNew := x.power.dirtyNew.map ren } }

/-- A counter's home adds to it and finds its old value (R81, R380). -/
def State.gfaaAt (s : State) (home addr : Nat) (add : Word) : State × Nat :=
  let old := (s.pkg home).hbm.nat addr 8
  ((s.modPkg home fun y => { y with hbm := y.hbm.setNat addr 8 (old + add.toNat) }).markDirty home (addr / 65536), old)

/-! ### The shadow pool (R64, R68) -/

/-- The shadow pool of a domain on a package. -/
def Pkg.pool (x : Pkg) (d : Nat) : Pool := x.pools[d % 4]

/-- Change the shadow pool of one domain, or of each. -/
def Pkg.modPool (x : Pkg) (d : Nat) (f : Pool → Pool) : Pkg := { x with pools := x.pools.set (d % 4) (f (x.pool d)) }
def Pkg.mapPools (x : Pkg) (f : Pool → Pool) : Pkg := { x with pools := #v[f (x.pool 0), f (x.pool 1), f (x.pool 2), f (x.pool 3)] }
def State.modPool (s : State) (p d : Nat) (f : Pool → Pool) : State := s.modPkg p fun x => x.modPool d f

/-- Take a free page of a pool, one that was returned before one never used (log entry 12), for a shadow of a launch in a superstep. -/
def Pool.take (q : Pool) (l k : Nat) : Option (Nat × Pool) :=
  if q.size ≤ q.used then none
  else match q.free with
    | n :: ns => some (n, { q with free := ns, used := q.used + 1, out := q.out ++ [(n, l, k)] })
    | [] => some (q.next, { q with next := q.next + 1, used := q.used + 1, out := q.out ++ [(q.next, l, k)] })

/-- A page returns to its pool. -/
def Pool.give (q : Pool) (n : Nat) : Pool := { q with free := q.free ++ [n], used := q.used - 1, out := q.out.filter fun e => e.1 != n }

/-- A shadow page has flipped. -/
def Pool.flip (q : Pool) (n : Nat) : Pool := { q with out := q.out.filter fun e => e.1 != n }

/-- A pool of a number of pages, where firmware sets it, up to the 128 GiB between two domains' first pages; the pages in use stay in use
(R64, log entry 12). -/
def Pool.resize (q : Pool) (n : Nat) : Pool := { q with size := min n 0x200000 }

/-- Return to the pool each page that is not kept, whose launch's next commit has completed and that no package still has to
acknowledge. -/
def Pool.reclaim (q : Pool) : Pool :=
  let free := fun (r : Released) => !r.kept && r.nextCommit && r.waiting == []
  (q.releasing.filter free).foldl (fun (q : Pool) r => q.give r.ppn) { q with releasing := q.releasing.filter fun r => !free r }

/-- A launch-start version is kept no longer (R66). -/
def Pool.unkeep (q : Pool) (n : Nat) : Pool :=
  Pool.reclaim { q with releasing := q.releasing.map fun r => if r.ppn == n then { r with kept := false } else r }

/-- A released page is a page of the domain again. -/
def Pool.recall (q : Pool) (n : Nat) : Pool := { q with releasing := q.releasing.filter fun r => r.ppn != n }

/-- Acknowledgements are known: of each package in a released page's list, those that meet a test are not waited for any longer
(R68). -/
def Pool.acked (q : Pool) (known : Nat × Option Nat → Bool) : Pool :=
  Pool.reclaim { q with releasing := q.releasing.map fun r => { r with waiting := r.waiting.filter fun n => !known n } }

/-- Copy a physical page. -/
def Memory.copyPage (m : Memory) (src dst : Nat) : Memory :=
  m.place (dst * 65536) 65536 (m.extract (src * 65536) 65536)

/-- The superstep that a launch is in, on the first package of its list. -/
def State.sstepOf (s : State) (l : Nat) : Nat := ((s.launch l).onPkg ((s.launch l).pkgs.headD (s.launch l).pkg)).sstep

/-- The shadow page of a launch's global page, allocated by its first write of the superstep from the pool of the launch's domain (R64,
R367); `none` when the home pool cannot meet it. -/
def State.shadow (s : State) (l : Nat) (g : Page) (vpn : Nat) : Option State :=
  if (s.launch l).shadows.any fun h => h.home == g.home && h.vpn == vpn then some s
  else match ((s.pkg g.home).pool (s.launch l).dom).take l (s.sstepOf l) with
    | none => none
    | some (n, q) => some ((s.modPkg g.home fun x => { x.modPool (s.launch l).dom fun _ => q with hbm := x.hbm.copyPage g.ppn n }).modLaunch l fun x =>
        { x with shadows := x.shadows ++ [{ home := g.home, vpn := vpn, ppn := n, old := g.ppn }] })

end Sys2Proof.Machine
end

