-- ==== Sys2Proof/Machine/Life.lean ====
section
/-!
DEFINITION. The life of a launch: placement (R16-R18), the state it starts with (R13), its end (R36, R37, R362), restart
(R308) and launch faults (R289); handler slots taking their next trap (R292, R293).
-/

namespace Sys2Proof.Machine

open Sys2Proof

/-! ### Keys (R105) -/

/-- pmix (R105). -/
def pmix (x : Word) : Word :=
  let x := x ^^^ (x >>> 30)
  let x := x * 0xBF58476D1CE4E5B9
  let x := x ^^^ (x >>> 27)
  let x := x * 0x94D049BB133111EB
  x ^^^ (x >>> 31)

/-- PIPKEY: key(ltile, task) (R105). -/
def pipKey (seed : Word) (ltile task : Nat) : Word :=
  pmix (seed ^^^ (BitVec.ofNat 64 (ltile * 4 + task) * 0x9E3779B97F4A7C15))

/-- draw(c) (R105). -/
def draw (key c : Word) : BitVec 32 := (pmix (key ^^^ (c * 0xD1B54A32D192ED03))).extractLsb' 0 32

/-! ### Placement (R16, R17) -/

/-- Usable physical tiles of a die, ascending by cluster and tile. -/
def State.dieTiles (s : State) (pd : Nat × Nat) : List Nat :=
  ((List.range 256).filter fun i => (s.pkg pd.1).usable pd.2 (i / 16) (i % 16)).map fun i => physId pd.1 pd.2 (i / 16) (i % 16)

/-- The dense numbering over granted dies (R17). -/
def State.dense (s : State) (dies : List (Nat × Nat)) : List Nat := dies.flatMap s.dieTiles

/-- The places of R17 over granted dies: for each logical tile its physical tile and its wave. -/
def State.placesOn (s : State) (l : Nat) (dies : List (Nat × Nat)) : List (Nat × Nat) :=
  let d := s.dense dies
  (List.range (s.launch l).desc.ntile).map fun t => (d.getD (t % d.length) 0, t / d.length)

/-- W, the number of waves (R17). -/
def State.waves (s : State) (l : Nat) : Nat :=
  (List.range (s.launch l).desc.ntile).foldl (fun n t => max n ((s.tile l t).wave + 1)) 1

/-- Give every logical tile its place; a tile of a wave other than the running one is parked (R17-R19). A retired tile, which
keeps its place until END (R27), is numbered with the others (log entry 68). -/
def State.placeAt (s : State) (l wave : Nat) (places : List (Nat × Nat)) : State :=
  places.zipIdx.foldl (fun s e => s.modTile l e.2 fun x => { x with phys := e.1.1, wave := e.1.2, parked := e.1.2 != wave }) s

/-- Number a launch over its dies by R17. -/
def State.place (s : State) (l wave : Nat) : State := s.placeAt l wave (s.placesOn l (s.launch l).dies)

/-- Dies that a launch holds: those that it stands on, and those that were granted to it in a move that has not ended. -/
def Launch.held (x : Launch) : List (Nat × Nat) := x.dies ++ ((x.move.map (·.dies)).getD [])

/-- Some launch holds a die (R16, R21, R22). -/
def State.dieHeld (s : State) (p d : Nat) : Bool := s.launches.any fun e => e.2.held.contains (p, d)

/-- Dies of a package that are free and permitted for a domain and a mask, ascending (R16). -/
def State.freeDies (s : State) (p dom : Nat) (mask : BitVec 8) : List Nat :=
  (List.range 8).filter fun d => (s.pkg p).dieUp d && (((s.pkg p).dom dom).cfg.dies.getLsbD d) && mask.getLsbD d && !s.dieHeld p d

/-! ### Start values (R13) -/

/-- The bank of a task at the start of superstep 0 (R13). -/
def startBank (d : Desc) : Bank :=
  { Bank.zero with pc := d.entry, x := (Vector.replicate 32 (0 : Word)).set 10 d.param, stallchk := BitVec.ofNat 2 d.floor }

def startTask (d : Desc) : Task := { Task.zero with bank := startBank d, kept := startBank d, status := .running }

/-- The owner of each block at launch start: mailbox blocks RO, the others split in equal contiguous ranges, the
remainder to the highest-numbered task (R13). -/
def startOwners (d : Desc) : List Owner :=
  let nb := (16 - d.pool) * 64
  let mlo := d.mbBase / 2048
  let mhi := mlo + d.mbSize / 2048
  let free := nb - d.mbSize / 2048
  let per := free / d.tasks
  (List.range nb).map fun b =>
    if mlo ≤ b ∧ b < mhi then .ro
    else
      let r := if b < mlo then b else b - d.mbSize / 2048
      .own (min (if per == 0 then d.tasks - 1 else r / per) (d.tasks - 1))

/-- The default direction table: v[0][j] = 2^(31−j) (R278). -/
def defaultTable : Memory :=
  (List.range 32).map fun j => (4 * j + (31 - j) / 8, BitVec.ofNat 8 (2 ^ ((31 - j) % 8)))

/-- The cells of bytes at 0 upwards. -/
def ofBytes (bs : List Byte) : Memory := Memory.cells 0 bs

/-- The direction table at launch start (R278). -/
def State.startTable (s : State) (l p : Nat) : Memory :=
  let x := s.launch l
  if x.desc.qrVa == 0 then defaultTable else ofBytes (s.directRead p x.dom x.desc.qrVa.toNat 32768)

/-- A logical tile at launch start, on the physical tile the placement gave it. -/
def State.startTile (s : State) (l t : Nat) : Tile :=
  let x := s.launch l
  let o := s.tile l t
  { Tile.zero with phys := o.phys, wave := o.wave, parked := o.parked, own := startOwners x.desc, ownCur := startOwners x.desc,
                   qrtab := s.startTable l (physPkg o.phys), weight := o.weight, cmps := o.cmps }

/-- A copy descriptor's fields from its 32 bytes (R233). -/
def copyDescOf (bs : List Byte) : CopyDesc :=
  let f := fun a n => leNat ((bs.drop a).take n)
  { remote := BitVec.ofNat 64 (f 0 8), tm := f 8 4, bytes := f 12 4, rows := f 16 4, rpitch := f 20 4, tpitch := f 24 4,
    layout := BitVec.ofNat 8 (f 28 1), flags := BitVec.ofNat 8 (f 29 1) }

/-- The initial fetch lists as they were read with the descriptor (R240, R385). -/
def Launch.initialLists (x : Launch) : List Fetch :=
  x.initial.map fun e => { tile := e.1, task := 0, entries := (e.2.getD []).map copyDescOf }

/-- Blocks that a copy's TM side touches, each row of it (R51). -/
def CopyDesc.blocks (c : CopyDesc) : List Nat :=
  dedup ((List.range c.rows).flatMap fun r =>
    let lo := c.tm + r * c.tpitch
    (List.range ((lo + c.bytes - 1) / 2048 - lo / 2048 + 1)).map fun b => lo / 2048 + b)

/-- Flip the blocks of staged lists to ENGINE (R51, R240). -/
def State.flipLists (s : State) (l : Nat) (fs : List Fetch) : State :=
  fs.foldl (fun s f => s.modTile l f.tile fun x =>
    { x with ownCur := x.ownCur.mapIdx fun b o =>
        if f.entries.any (fun e => e.blocks.contains b) then (match o with | .own i => .fetch i | w => w) else o }) s

/-- The home package's snapshot of the counters, taken as a superstep starts (R81). -/
def State.snapshot (s : State) (l : Nat) : State :=
  let x := s.launch l
  if x.desc.ctrCount == 0 then s
  else s.modLaunch l fun y => { y with snap := Memory.cells x.desc.ctrVa.toNat (s.homeRead l x.pkg x.desc.ctrVa.toNat (8 * x.desc.ctrCount)) }

/-- Put counters of a launch back to some values (R81, R303, R308). -/
def State.resetCounters (s : State) (l : Nat) (snap : Memory) : State :=
  let x := s.launch l
  if x.desc.ctrCount == 0 then s
  else s.launchWrite l x.pkg x.desc.ctrVa.toNat (Memory.read snap x.desc.ctrVa.toNat (8 * x.desc.ctrCount))

/-- Put a launch into its launch-start state on its present placement: R13, superstep 0, phase STAGE. Every package reads the
Broadcast Table as it stands at the launch's start on the package whose queue held it (R76), and reaches that pawn position
before it computes (R77). -/
def State.startState (s : State) (l : Nat) : State :=
  let x := s.launch l
  let s := (List.range x.desc.ntile).foldl (fun s t => s.setTile l t (s.startTile l t)) s
  let s := (List.range x.desc.ntile).foldl (fun s t =>
    (List.range x.desc.tasks).foldl (fun s i => s.setTask (.thread l t i) (startTask x.desc)) s) s
  let lists := x.initialLists
  let s := s.modLaunch l fun x =>
    { x with pends := [], fetchNow := lists, fetchNext := [], shadows := [], ptOld := [], gflags := 0, digest := 0, serial := false,
             trigs := [], trigHeld := false, trigDone := false, killMark := false, outward := false, enqueued := [], again := [], flipped := [],
             fresh := true, decided := none, ckpt := false, found := [], move := none, moveHeld := false, conflSeen := x.confl, fault := none, startAck := (s.pkg x.pkg).ack,
             lp := x.pkgs.map fun p => (p, { LPkg.zero with phase := .stage, bt := ((s.pkg x.pkg).dom x.dom).bt }) }
  let s := s.snapshot l
  (s.modLaunch l fun x => { x with snap0 := x.snap }).flipLists l lists

/-! ### Handler slots (R292, R293, R299) -/

/-- An idle handler slot takes its next queued trap: the run starts at the handler image with x1 to x31 zero (R293). -/
def State.handlerNext (s : State) (p phys : Nat) : State :=
  let h := s.handler p phys
  match h.serving, h.queue with
  | none, (k, alt) :: q =>
    let l := match k with | .thread l _ _ => l | .handler _ _ => 0
    let va := ((s.pkg p).dom (s.launch l).dom).cfg.handlerVa
    (s.setHandler p phys { serving := some (k, alt), queue := q }).setTask (.handler p phys)
      { Task.zero with bank := { Bank.zero with pc := va }, status := .running }
  | _, _ => s

/-- End the handler run of a slot and let it take the next trap. -/
def State.handlerEnd (s : State) (p phys : Nat) : State :=
  let s := s.setHandler p phys { s.handler p phys with serving := none }
  (s.modTask (.handler p phys) fun t => { t with status := .retired }).handlerNext p phys

/-- Cancel every queued or served trap of the slots that satisfy a test (R299). -/
def State.cancelTraps (s : State) (p : Slot → Bool) : State :=
  s.handlers.foldl (fun s e =>
    let h := s.handler e.1.1 e.1.2
    let s := s.setHandler e.1.1 e.1.2 { h with queue := h.queue.filter fun q => !p q.1 }
    match h.serving with
    | some (k, _) => if p k then s.handlerEnd e.1.1 e.1.2 else s
    | none => s) s

/-- The launch a slot belongs to. -/
def slotLaunch : Slot → Option Nat
  | .thread l _ _ => some l
  | .handler _ _ => none

/-- A thread slot of a launch on a package. -/
def State.slotOn (s : State) (l p : Nat) : Slot → Bool
  | .thread l' t _ => l' == l && s.tilePkg l t == p
  | .handler _ _ => false

/-- A package enters ABORT for a launch: issue stops there, and every trap of its tasks that is queued or served is cancelled with
its handler run (R299, R303 step 1). -/
def State.enterAbort (s : State) (l p : Nat) : State :=
  (s.cancelTraps (s.slotOn l p)).modLpkg l p fun z => { z with phase := .aborting }

/-! ### The end of a launch -/

/-- Write a completion record and signal its vector, unless the record has nowhere to go (R362, R363). -/
def State.complete (s : State) (p d q va : Nat) (id final digest elapsed : Nat) (status gflags : Nat) : State :=
  let bs := natLe 8 id ++ natLe 8 final ++ natLe 8 digest ++ natLe 4 elapsed ++ natLe 1 status ++ natLe 1 gflags ++ natLe 2 0
  if (s.xlateDom p d va).isSome then (s.directWrite p d va bs).msi p (8 * d + q) else s

/-- Keep a completion among the 4,096 most recent (R34). -/
def State.retain (s : State) (p d : Nat) (id : Word) (status : Nat) : State :=
  s.modDom p d fun x => { x with done := ((id, status) :: x.done).take 4096 }

/-- Release the reservations that a launch's pending LAUNCHes hold (R31, R303); `keep` tells which pends stay. -/
def State.releaseRes (s : State) (l : Nat) (gone : Pend → Bool) : State :=
  ((s.launch l).pends.filter gone).foldl (fun s p =>
    match p.eff with
    | .launch _ q => s.modQueue (s.tilePkg l p.tile) (s.launch l).dom q fun x => { x with reserved := x.reserved - 1 }
    | _ => s) s

/-- Give the shadow pages of a superstep back to their pools (R66, R303). -/
def State.dropShadows (s : State) (l : Nat) : State :=
  let d := (s.launch l).dom
  let s := (s.launch l).shadows.foldl (fun s h => s.modPool h.home d fun q => q.give h.ppn) s
  s.modLaunch l fun x => { x with shadows := [] }

/-- The pages that a launch released may return to the pool once every package has acknowledged them (R68). -/
def Pool.pass (q : Pool) (l : Nat) : Pool :=
  Pool.reclaim { q with releasing := q.releasing.map fun r => if r.launch == l then { r with nextCommit := true } else r }

/-- A commit of a launch, or its end, lets go of the pages that its earlier commits released (R68), on the packages that
satisfy a test. -/
def State.commitPassed (s : State) (l : Nat) (on : Nat → Bool) : State :=
  { s with pkgs := s.pkgs.map fun e => if on e.1 then (e.1, e.2.mapPools fun q => q.pass l) else e }

/-- A notice of the launch that some package has still to process: its flips are not complete everywhere (R36, R37, R66). -/
def State.flipsPending (s : State) (l : Nat) : Bool :=
  let ours := fun (f : Frame) => match f.pay with
    | .commit l' _ pages => l' == l && pages != []
    | _ => false
  s.pkgs.any fun e => !e.2.failed && (e.2.tx.any ours || e.2.rx.any fun r => match r.1 with
    | some f => ours f
    | none => true)

/-- The launch's record is written, its id joins the retained completions, and its tiles, tasks and dies are given up, unless
a failed save holds them (R36, R37, R318, R362). Status 0 is reported as 0x83 after a committed kill (R297). -/
def State.finishLaunch (s : State) (l status : Nat) : State :=
  let x := s.launch l
  let st := if status == 0 ∧ x.killMark then 0x83 else status
  let y := x.onPkg (x.pkgs.headD x.pkg)
  let never := x.started == 0
  let s := s.complete x.pkg x.dom x.queue x.desc.complVa.toNat x.id.toNat (if y.sstep == 0 then 2 ^ 64 - 1 else y.sstep - 1)
    (if never then 0 else x.digest.toNat) (if never then 0 else (Config.elapsed s.free).toNat) st x.gflags.toNat
  let s := (s.retain x.pkg x.dom x.id st).tick
  let s := x.replay.foldl (fun s h => s.modPool h.home x.dom fun q => q.unkeep h.old) s
  let s := s.commitPassed l fun _ => true
  if x.holdTiles then
    s.modLaunch l fun x => { x with status := st, pends := [], lp := x.lp.map fun e => (e.1, { e.2 with phase := .failed }) }
  else
    { s with launches := Tab.del s.launches l,
             tiles := s.tiles.filter fun e => e.1.1 != l,
             tasks := s.tasks.filter fun e => slotLaunch e.1 != some l }

/-- Set the phase of a launch on every package. -/
def State.setPhase (s : State) (l : Nat) (f : Phase) : State :=
  s.modLaunch l fun x => { x with lp := x.lp.map fun e => (e.1, { e.2 with phase := f }) }

/-- Change every tile of a launch. -/
def State.mapTiles (s : State) (l : Nat) (f : Tile → Tile) : State :=
  { s with tiles := s.tiles.map fun e => if e.1.1 == l then (e.1, f e.2) else e }

/-- What a launch has under way is dropped on every package: its traps, reservations, shadow pages, packets, queued effects and saves, and
a launch fault that waited. -/
def State.dropWork (s : State) (l : Nat) : State :=
  let s := s.cancelTraps fun k => slotLaunch k == some l
  let s := (s.releaseRes l fun _ => true).dropShadows l
  let s := { s with fabric := s.fabric.filter fun k => k.launch != l }.mapTiles l fun y => { y with saving := false }
  s.modLaunch l fun x => { x with pends := [], fetchNow := [], fetchNext := [], move := none, moveHeld := false, decided := none, fault := none }

/-- The launch ends with a completion status: what its superstep has under way is dropped, and the record of one that has started is
written once the flips of its commits are complete on every package (R36, R37, R78). -/
def State.endLaunch (s : State) (l status : Nat) : State :=
  let s := s.dropWork l
  if (s.launch l).lp != [] && s.flipsPending l then (s.setPhase l .ended).modLaunch l fun x => { x with status := status } else s.finishLaunch l status

/-- Point the PTE of a page at a physical page, in the home package's view (R66). A change of the page's PA that firmware made
since the launch's first write of it is overwritten (log entry 57). -/
def State.setPte (s : State) (home dom vpn ppn : Nat) : State :=
  let x := s.pkg home
  match walkAddr x.hbm (x.dom dom).cfg.root (vpn * 65536) with
  | some a =>
    let e := x.hbm.nat a 8
    let e' := e % 65536 + ppn % 2 ^ 36 * 65536 + e / 2 ^ 52 * 2 ^ 52
    s.modPkg home fun x => { x with hbm := x.hbm.setNat a 8 e' }
  | none => s

/-- Point another package's PTE for a peer page at a physical page (R350, R354). -/
def State.setPeerPte (s : State) (p dom vpn home ppn : Nat) : State :=
  let x := s.pkg p
  match walkAddr x.hbm (x.dom dom).cfg.root (vpn * 65536) with
  | some a =>
    let e := x.hbm.nat a 8
    if ptePeer e && pteScale e == home then s.setPte p dom vpn ppn else s
  | none => s

/-- The lines of a released physical page leave the die caches of a package (R68). -/
def Pkg.dropLines (x : Pkg) (home ppn : Nat) : Pkg := { x with stale := x.stale.filter fun e => !(e.1 == home && e.2.1 / 1024 == ppn) }

/-- A renamed page is current for every launch on the package, one that does not see firmware's later changes included. -/
def State.repoint (s : State) (p d vpn old ppn : Nat) : State :=
  s.mapLaunches fun x =>
    if x.dom != d then x
    else { x with ptOld := x.ptOld.map fun e =>
      if e.1 == (p, vpn) && ptePa e.2.toNat == old then
        (e.1, BitVec.ofNat 64 (e.2.toNat % 65536 + ppn % 2 ^ 36 * 65536 + e.2.toNat / 2 ^ 52 * 2 ^ 52))
      else e }

/-- The page becomes current in another package's view of it, which drops the lines that it holds of the released one (R68, R350,
R354). -/
def State.flipPeer (s : State) (p d : Nat) (h : Shadow) : State :=
  ((s.setPeerPte p d h.vpn h.home h.ppn).repoint p d h.vpn h.old h.ppn).modPkg p fun x => x.dropLines h.home h.old

/-- A package's view of its memory as the present commit of a launch leaves it on every package: the launch's shadow pages that are homed
elsewhere are current too (R26, R385). -/
def State.asCommitted (s : State) (l p : Nat) : State :=
  (s.launch l).shadows.foldl (fun s h => if h.home == p then s else s.flipPeer p (s.launch l).dom h) s

/-- The level-2 entry as it stands; 0 where no table leads to one. -/
def State.entryOf (s : State) (p d va : Nat) : Nat := (walk (s.pkg p).hbm ((s.pkg p).dom d).cfg.root va).getD 0

/-- A page returns to a version it had, in its home's table and in every other package's view of it (R66, R308). -/
def State.unflip (s : State) (d : Nat) (h : Shadow) : State :=
  let now := ptePa (s.entryOf h.home d (h.vpn * 65536))
  let s := s.modPool h.home d fun q => (if now == h.old then q else q.give now).recall h.old
  let s := ((s.setPte h.home d h.vpn h.old).repoint h.home d h.vpn now h.old).renameDirty h.home now h.old
  s.pkgs.foldl (fun s e => if e.1 != h.home && e.2.hosts d then
    ((s.setPeerPte e.1 d h.vpn h.home h.old).repoint e.1 d h.vpn now h.old).modPkg e.1 fun x => x.dropLines h.home now else s) s

/-- A frame of a launch's votes, commits or broadcast writes. -/
def Frame.ofLaunch (f : Frame) (l : Nat) : Bool :=
  match f.pay with
  | .vote l' _ _ _ => l' == l
  | .voteMore l' _ _ _ => l' == l
  | .commit l' _ _ => l' == l
  | .bcast l' _ _ => l' == l
  | .pawn _ => false
  | .notice _ => false

/-- Some package has still to process a frame of the launch's run. -/
def State.framesPending (s : State) (l : Nat) : Bool :=
  s.pkgs.any fun e => !e.2.failed && (((e.2.tx ++ e.2.txHeld).any fun f => f.ofLaunch l) || e.2.rx.any fun r => match r.1 with
    | some f => f.ofLaunch l
    | none => true)

/-- A frame of a launch's broadcast writes. -/
def Frame.bcasts (f : Frame) (l : Nat) : Bool :=
  match f.pay with
  | .bcast l' _ _ => l' == l
  | _ => false

/-- A frame of a launch's votes. -/
def Frame.votesOf (f : Frame) (l : Nat) : Bool :=
  match f.pay with
  | .vote l' _ _ _ => l' == l
  | .voteMore l' _ _ _ => l' == l
  | _ => false

/-- Frames that satisfy a test and have not been sent are withdrawn on every package. -/
def State.unsend (s : State) (f : Frame → Bool) : State :=
  { s with pkgs := s.pkgs.map fun e => (e.1, { e.2 with tx := e.2.tx.filter fun q => !f q, txHeld := e.2.txHeld.filter fun q => !f q }) }

/-- Start a stopped REPLAY launch anew from its launch-start versions (R308); as at a start, every change of a PTE is seen (R63). -/
def State.restart (s : State) (l : Nat) : State :=
  let x := s.launch l
  let s := s.modLaunch l fun x => { x with ptOld := [] }
  let s := x.replay.foldl (fun s h => s.unflip x.dom h) s
  let s := s.resetCounters l x.snap0
  (s.modLaunch l fun x => { x with replay := [], restarts := x.restarts + 1 }).startState l

/-- A REPLAY launch stops for a launch fault; its votes and broadcast writes that have not been sent are withdrawn, and its commit notices
are sent all the same. It restarts once every package has processed the frames of its run, so that none of
them counts in the new one (R308; log entry 69). -/
def State.stopRun (s : State) (l code : Nat) : State :=
  let s := (s.dropWork l).unsend fun f => f.votesOf l || f.bcasts l
  if s.framesPending l then (s.setPhase l .ended).modLaunch l fun x => { x with fault := some code } else s.restart l

/-- Some package of a launch has applied a commit that another one, which will decide it at the same frame, has not (R349). -/
def Launch.split (x : Launch) : Bool := x.lp.any fun a => x.lp.any fun b => decide (a.2.sstep < b.2.sstep)

/-- A launch fault restarts a REPLAY launch where the table of R289 says so and R308 allows it. -/
def Launch.mayRestart (x : Launch) (code : Nat) : Bool :=
  x.desc.replay && [0x80, 0x81, 0x85].contains code && decide (x.restarts < x.desc.limit) && x.trigs == [] && !x.outward

/-- A launch fault (R289): restarts a launch or ends it, once every package has applied a commit that one has applied. -/
def State.launchFault (s : State) (l code : Nat) : State :=
  let x := s.launch l
  if x.split then s.modLaunch l fun x => { x with fault := some (x.fault.getD code) }
  else if x.mayRestart code then s.stopRun l code
  else s.endLaunch l code

/-! ### Class B causes (R25, R288, R390) -/

/-- Where a superstep stands for a class B cause: open, in ABORT, or decided (R390). -/
inductive Outcome where
  | open | aborting | decided | none
deriving DecidableEq, Repr

/-- A frame that carries a vote of a launch for superstep `k` and run `r`. -/
def Frame.votes (f : Frame) (l k r : Nat) : Bool :=
  match f.pay with
  | .vote l' k' r' _ => l' == l && k' == k && r' == r
  | .voteMore l' k' r' _ => l' == l && k' == k && r' == r
  | _ => false

/-- A frame of the package's vote has still to be sent: the vote is not final (R349). -/
def State.voteUnsent (s : State) (l p : Nat) : Bool :=
  (s.pkg p).tx.any fun f => f.votes l (s.lpkg l p).sstep (s.lpkg l p).reexec

/-- The outcome of the present superstep as a package knows it. A held or waiting launch keeps committed state only. -/
def State.outcome (s : State) (l p : Nat) : Outcome :=
  match (s.lpkg l p).phase with
  | .stage | .compute | .closing | .voted => .open
  | .sent => if s.voteUnsent l p then .open else .decided
  | .aborting => .aborting
  | .committed | .paused | .parking | .held | .waitSpare => .decided
  | .queued | .parked | .failed | .ended | .dark => .none

/-- Withdraw a vote that has not been sent: the package is in CLOSING again. -/
def State.withdrawVote (s : State) (l p : Nat) : State :=
  match (s.lpkg l p).phase with
  | .voted | .sent =>
    (s.modPkg p fun x => { x with tx := x.tx.filter fun f => !f.votes l (s.lpkg l p).sstep (s.lpkg l p).reexec }).modLpkg l p fun y => { y with phase := .closing, vote := none }
  | _ => s

/-- Raise a class B cause on a package of a launch: it fixes the vote while the superstep's outcome is open there (STAGE,
COMPUTE, CLOSING, and a vote not yet sent, which is withdrawn); otherwise nothing (R349, R390; what a late cause damages is
handled by the event that finds it). -/
def State.raiseB (s : State) (l p c : Nat) : State :=
  if s.outcome l p == .open then
    (s.withdrawVote l p).modLpkg l p fun x => { x with causes := if x.causes.contains c then x.causes else x.causes ++ [c] }
  else s

/-! ### Packets (R335, R336, R340) -/

/-- The valid paths to a package, ascending (R335). -/
def State.pathsTo (s : State) (p d : Nat) : List (BitVec 64) :=
  ((List.range 4).map fun q => Tab.get (s.pkg p).paths 0 (4 * d + q)).filter fun e =>
    let n := e.toNat
    let hops := bits n 0 6
    bitAt n 48 && decide (1 ≤ hops) && decide (hops ≤ 6) && decide (bits n 42 6 ≤ 27) &&
      !(Tab.get (s.pkg p).ports .zero (bits n 42 6)).lost && bits n (6 + 6 * hops) (42 - (6 + 6 * hops)) == 0 && bits n 49 15 == 0

/-- The path that a packet takes (R336); none when the destination is unreachable. -/
def State.route (s : State) (p d : Nat) (ra : Word) : Option (BitVec 64) :=
  let ps := s.pathsTo p d
  ps[(pmix (ra >>> 6)).toNat % 2 ^ 32 % ps.length]?

/-- The first port of a path (R335). -/
def pathPort (e : BitVec 64) : Nat := bits e.toNat 42 6

/-- Put a packet on the fabric; one to an unreachable package is lost and votes 0x42 (R336, R338). -/
def State.sendPacket (s : State) (l dst : Nat) (ra : Word) (src : Nat) (ps : List Pend) (g : Option GfaaReq) : State :=
  match s.route src dst ra with
  | some e => { s with fabric := s.fabric ++ [{ src := src, dst := dst, ra := ra.toNat, path := e, launch := l, pends := ps, gfaa := g, st := .inFlight }] }
  | none => s.raiseB l src 0x42

/-- CLOSING begins on a package: what it has held is sent in the order in which it was issued (R64, R75, R340). -/
def State.sendHeld (s : State) (l p : Nat) : State :=
  let mine := fun (q : Packet) => q.launch == l && q.src == p && q.st == .held
  (s.fabric.filter mine).foldl (fun s q => s.sendPacket l q.dst (BitVec.ofNat 64 q.ra) p q.pends q.gfaa)
    { s with fabric := s.fabric.filter fun q => !mine q }

/-! ### CLOSING (R23) -/

/-- A save of some tile of a launch is under way on a package. -/
def State.savingOn (s : State) (l p : Nat) : Bool :=
  (List.range (s.launch l).desc.ntile).any fun t => (s.tile l t).saving && s.tilePkg l t == p

/-- The task slots of a launch on a package, with their state. -/
def State.tasksOn (s : State) (l p : Nat) : List (Nat × Nat × Task) :=
  s.tasks.filterMap fun e => match e.1 with
    | .thread l' t i => if l' == l && s.tilePkg l t == p then some (t, i, e.2) else none
    | .handler _ _ => none

/-- A task that no longer holds its tile out of CLOSING (R23, R24, R228). -/
def TaskStatus.atBarrier : TaskStatus → Bool
  | .atSync _ _ => true
  | .atExit => true
  | .killed => true
  | .retired => true
  | _ => false

/-- COMPUTE leaves to CLOSING when every non-exited task of the last wave is at SYNC (R23). -/
def State.checkClosing (s : State) (l p : Nat) : State :=
  let x := s.lpkg l p
  if x.phase == .compute && x.causes == [] && decide (s.waves l ≤ x.wave + 1) && !s.savingOn l p &&
      (s.tasksOn l p).all (fun e => (s.tile l e.1).wave != x.wave || e.2.2.status.atBarrier) then
    (s.modLpkg l p fun y => { y with phase := .closing }).sendHeld l p
  else s

end Sys2Proof.Machine
end

