-- ==== Sys2Proof/Machine/Flags.lean ====
section
/-!
DEFINITION. The flag registers: TFLAGS (R107, R108), the arithmetic-trap test (R109, R190), draws (R106) and the flags the
vote gathers.
-/

namespace Sys2Proof.Machine

open Sys2Proof

/-- Raise flags into TFLAGS: sticky (R108). -/
def Bank.raise (b : Bank) (f : FFlags) : Bank := { b with tflags := b.tflags ||| f }

/-- An FP instruction that would raise an enabled flag traps (R109). -/
def Bank.arithTrap (b : Bank) (f : FFlags) : Bool := b.trapen &&& f != 0

/-- Take `n` draws: PIPCTR and PIPDRAW advance (R106). -/
def Bank.drew (b : Bank) (n : Nat) : Bank :=
  { b with pipctr := b.pipctr + BitVec.ofNat 64 n, pipdraw := b.pipdraw + BitVec.ofNat 64 n }

/-- The 24 bits of the j-th draw that rounding under SR uses: [31:8] (R100, R106). -/
def srBits (key ctr : Word) (j : Nat) : Nat := (draw key (ctr + BitVec.ofNat 64 j)).toNat / 256

/-- HTVAL of an arithmetic trap: the flags it would have raised (R109). -/
def flagsTval (f : FFlags) : Word := f.zeroExtend 64

/-- The flags of a commit-time operation join a tile's CFLAGS (R108). -/
def Tile.raiseC (x : Tile) (f : BitVec 6) : Tile := { x with cflags := x.cflags ||| f }

/-- WO (R107). -/
def flagWO : BitVec 6 := 32

end Sys2Proof.Machine
end

