-- ==== Sys2Proof/Machine/Operands.lean ====
section
/-!
DEFINITION. What an instruction word reads and writes (R147), its fixed latency (R146) and the register's value before it,
and which words are illegal for the task that issues them (R125, R134, R136, R138).
-/

namespace Sys2Proof.Machine

open Sys2Proof

/-- An x register as a source or destination; x0 never counts (R135). -/
def xr (r : Reg) : List RegId := if r = 0 then [] else [{ file := .x, num := r.toNat }]
def vr (r : Reg) : List RegId := [{ file := .v, num := r.toNat }]
/-- A predicate register; p0 never counts (R135). -/
def pr (r : PReg) : List RegId := if r = 0 then [] else [{ file := .p, num := r.toNat }]
/-- The governing predicate (R130). -/
def gr (r : Pg) : List RegId := if r = 0 then [] else [{ file := .p, num := r.toNat }]
/-- An even pair of x registers (R260). -/
def xpair (r : Reg) : List RegId := xr r ++ xr (r + 1)
/-- Sixteen v registers from v0 or v16 (R271). -/
def v16 (r : Reg) : List RegId := (List.range 16).map fun j => { file := .v, num := (r.toNat + j) % 32 }

/-- The source registers an instruction word reads at issue (R159, R187, R223). -/
def srcs : Instr → List RegId
  | .jalr _ a _ | .lb _ a _ | .lh _ a _ | .lw _ a _ | .ld _ a _ | .lbu _ a _ | .lhu _ a _ | .lwu _ a _
  | .addi _ a _ | .slti _ a _ | .sltiu _ a _ | .xori _ a _ | .ori _ a _ | .andi _ a _
  | .slli _ a _ | .srli _ a _ | .srai _ a _ | .addiw _ a _ | .slliw _ a _ | .srliw _ a _ | .sraiw _ a _
  | .csrrw _ _ a | .csrrs _ _ a | .csrrc _ _ a
  | .sync _ a | .launch a | .abortreq a | .hret a | .cpget _ a | .cpput _ a | .cppeer _ a | .cpwait a | .cptest _ a
  | .flist a | .gresAddd _ a | .gresMind _ a | .gresMaxd _ a | .gresAndd _ a | .gresOrd _ a | .gresXord _ a
  | .gresFadds _ a | .gresFmins _ a | .gresFmaxs _ a | .bld _ a | .tlook _ a | .tdel a
  | .pldr _ a | .mrd _ _ a | .qrv _ a | .qrvf _ a | .qrskip a => xr a
  | .beq a b _ | .bne a b _ | .blt a b _ | .bge a b _ | .bltu a b _ | .bgeu a b _
  | .sb a b _ | .sh a b _ | .sw a b _ | .sd a b _
  | .add _ a b | .sub _ a b | .sll _ a b | .slt _ a b | .sltu _ a b | .xor _ a b | .srl _ a b | .sra _ a b | .or _ a b
  | .and _ a b | .addw _ a b | .subw _ a b | .sllw _ a b | .srlw _ a b | .sraw _ a b
  | .mul _ a b | .mulh _ a b | .mulhsu _ a b | .mulhu _ a b | .div _ a b | .divu _ a b | .rem _ a b | .remu _ a b
  | .mulw _ a b | .divw _ a b | .divuw _ a b | .remw _ a b | .remuw _ a b
  | .give a b | .raddw a b | .raddd a b | .rfadds a b | .rmind a b | .rmaxd a b | .rord a b | .randd a b | .rxord a b
  | .send a b | .redadd a b | .gfaa _ a b
  | .gredAddd a b | .gredMind a b | .gredMaxd a b | .gredAndd a b | .gredOrd a b | .gredXord a b
  | .gredFadds a b | .gredFmins a b | .gredFmaxs a b | .bst a b | .tins a b
  | .pwhilelt _ _ a b | .qrx _ a b | .qrtld a b => xr a ++ xr b
  | .vld _ a g | .vldpi _ a g => xr a ++ gr g
  | .vst v a g | .vstpi v a g => xr a ++ vr v ++ gr g
  | .vlds _ a b g => xr a ++ xr b ++ gr g
  | .vsts v a b g => xr a ++ xr b ++ vr v ++ gr g
  | .vgath _ a i g => xr a ++ vr i ++ gr g
  | .vscat v a i g => xr a ++ vr v ++ vr i ++ gr g
  | .pstr p a => xr a ++ pr p
  | .vfma _ d a b g | .vfnms _ d a b g => vr d ++ vr a ++ vr b ++ gr g
  | .vfadd _ _ a b g | .vfsub _ _ a b g | .vfmul _ _ a b g | .vfmin _ _ a b g | .vfmax _ _ a b g | .vfcpys _ _ a b g
  | .vfceq _ _ a b g | .vfclt _ _ a b g | .vfcle _ _ a b g | .vfdiv _ _ a b g | .vscale _ a b g
  | .vadd _ _ a b g | .vsub _ _ a b g | .vmul _ _ a b g | .vmulh _ _ a b g | .vand _ _ a b g | .vor _ _ a b g
  | .vxor _ _ a b g | .vsll _ _ a b g | .vsrl _ _ a b g | .vsra _ _ a b g | .vmin _ _ a b g | .vmax _ _ a b g
  | .vminu _ _ a b g | .vmaxu _ _ a b g | .viceq _ _ a b g | .viclt _ _ a b g | .vicltu _ _ a b g
  | .vsel _ a b g | .vperm _ _ a b g | .vzip _ _ a b g | .vunzip _ _ a b g => vr a ++ vr b ++ gr g
  | .vfabs _ _ a g | .vfneg _ _ a g | .vfsumr _ _ a g | .vfmaxr _ _ a g | .vfcvt _ _ _ a g
  | .vfrcp _ _ a g | .vfrsq _ _ a g | .vfsqrt _ _ a g | .vfexp2 _ _ a g | .vflog2 _ _ a g | .vftanh _ _ a g
  | .vcvtn _ a _ g | .vcvtw _ a _ g | .vbmax _ a _ g | .visumr _ _ a g => vr a ++ gr g
  | .vslup _ _ v a g | .vsldn _ _ v a g => xr a ++ vr v ++ gr g
  | .viota _ _ g => gr g
  | .vdupx _ _ a g => xr a ++ gr g
  | .vmvxs _ _ v a => xr a ++ vr v
  | .plogicAnd _ a b | .plogicOr _ a b | .plogicXor _ a b | .plogicAndn _ a b => pr a ++ pr b
  | .pcnt _ _ a | .pfirst _ _ a => pr a
  | .vaddi _ d _ | .vmuli _ d _ | .vmaxi _ d _ => vr d
  | .mma _ a b | .mmas _ a b => xpair a ++ xpair b
  | .mmav _ a b => v16 a ++ xpair b
  | .mwr _ v a => xr a ++ vr v
  | .mst _ a => xpair a
  | _ => []

/-- The registers an instruction word writes with a result (R159, R187); SYNC's rd is written at commit (R227). -/
def dsts : Instr → List RegId
  | .lui d _ | .auipc d _ | .jal d _ | .jalr d _ _
  | .lb d _ _ | .lh d _ _ | .lw d _ _ | .ld d _ _ | .lbu d _ _ | .lhu d _ _ | .lwu d _ _
  | .addi d _ _ | .slti d _ _ | .sltiu d _ _ | .xori d _ _ | .ori d _ _ | .andi d _ _
  | .slli d _ _ | .srli d _ _ | .srai d _ _ | .addiw d _ _ | .slliw d _ _ | .srliw d _ _ | .sraiw d _ _
  | .add d _ _ | .sub d _ _ | .sll d _ _ | .slt d _ _ | .sltu d _ _ | .xor d _ _ | .srl d _ _ | .sra d _ _ | .or d _ _
  | .and d _ _ | .addw d _ _ | .subw d _ _ | .sllw d _ _ | .srlw d _ _ | .sraw d _ _
  | .mul d _ _ | .mulh d _ _ | .mulhsu d _ _ | .mulhu d _ _ | .div d _ _ | .divu d _ _ | .rem d _ _ | .remu d _ _
  | .mulw d _ _ | .divw d _ _ | .divuw d _ _ | .remw d _ _ | .remuw d _ _
  | .csrrw d _ _ | .csrrs d _ _ | .csrrc d _ _ | .csrrwi d _ _ | .csrrsi d _ _ | .csrrci d _ _
  | .cpget d _ | .cpput d _ | .cppeer d _ | .cptest d _ | .gfaa d _ _
  | .gresAddd d _ | .gresMind d _ | .gresMaxd d _ | .gresAndd d _ | .gresOrd d _ | .gresXord d _
  | .gresFadds d _ | .gresFmins d _ | .gresFmaxs d _ | .bld d _ | .tlook d _ | .vmvxs _ d _ _ | .pcnt _ d _
  | .qrx d _ _ => xr d
  | .vldpi d a _ => vr d ++ xr a
  | .vstpi _ a _ => xr a
  | .vld d _ _ | .vlds d _ _ _ | .vgath d _ _ _
  | .vfma _ d _ _ _ | .vfnms _ d _ _ _ | .vfadd _ d _ _ _ | .vfsub _ d _ _ _ | .vfmul _ d _ _ _ | .vfmin _ d _ _ _
  | .vfmax _ d _ _ _ | .vfcpys _ d _ _ _ | .vfdiv _ d _ _ _ | .vscale d _ _ _
  | .vadd _ d _ _ _ | .vsub _ d _ _ _ | .vmul _ d _ _ _ | .vmulh _ d _ _ _ | .vand _ d _ _ _ | .vor _ d _ _ _
  | .vxor _ d _ _ _ | .vsll _ d _ _ _ | .vsrl _ d _ _ _ | .vsra _ d _ _ _ | .vmin _ d _ _ _ | .vmax _ d _ _ _
  | .vminu _ d _ _ _ | .vmaxu _ d _ _ _ | .vsel d _ _ _ | .vperm _ d _ _ _ | .vzip _ d _ _ _ | .vunzip _ d _ _ _
  | .vfabs _ d _ _ | .vfneg _ d _ _ | .vfsumr _ d _ _ | .vfmaxr _ d _ _ | .vfcvt _ _ d _ _
  | .vfrcp _ d _ _ | .vfrsq _ d _ _ | .vfsqrt _ d _ _ | .vfexp2 _ d _ _ | .vflog2 _ d _ _ | .vftanh _ d _ _
  | .vcvtn d _ _ _ | .vcvtw d _ _ _ | .vbmax d _ _ _ | .visumr _ d _ _ | .vslup _ d _ _ _ | .vsldn _ d _ _ _
  | .viota _ d _ | .vdupx _ d _ _ | .vli _ d _ | .vaddi _ d _ | .vmuli _ d _ | .vmaxi _ d _
  | .mrd d _ _ | .qrv d _ | .qrvf d _ | .pipv d => vr d
  | .pldr d _ | .pwhilelt _ d _ _ | .plogicAnd d _ _ | .plogicOr d _ _ | .plogicXor d _ _ | .plogicAndn d _ _
  | .pfirst _ d _ | .vfceq _ d _ _ _ | .vfclt _ d _ _ _ | .vfcle _ d _ _ _ | .viceq _ d _ _ _ | .viclt _ d _ _ _
  | .vicltu _ d _ _ _ => pr d
  | _ => []

/-- The fixed latency L of an instruction's result (R146); 1 also stands for every result that is interlocked. The load
forms have theirs when every byte is in own TM. A predicate result of VFCEQ, VFCLT or VFCLE takes 6, as every vector FP operation from
0x00 to 0x0B (log entry 75). -/
def latency : Instr → Nat
  | .mul _ _ _ | .mulh _ _ _ | .mulhsu _ _ _ | .mulhu _ _ _ | .mulw _ _ _ => 3
  | .lb _ _ _ | .lh _ _ _ | .lw _ _ _ | .ld _ _ _ | .lbu _ _ _ | .lhu _ _ _ | .lwu _ _ _ => 4
  | .vadd _ _ _ _ _ | .vsub _ _ _ _ _ | .vmul _ _ _ _ _ | .vmulh _ _ _ _ _ | .vand _ _ _ _ _ | .vor _ _ _ _ _
  | .vxor _ _ _ _ _ | .vsll _ _ _ _ _ | .vsrl _ _ _ _ _ | .vsra _ _ _ _ _ | .vmin _ _ _ _ _ | .vmax _ _ _ _ _
  | .vminu _ _ _ _ _ | .vmaxu _ _ _ _ _ | .viceq _ _ _ _ _ | .viclt _ _ _ _ _ | .vicltu _ _ _ _ _
  | .vsel _ _ _ _ | .viota _ _ _ | .vdupx _ _ _ _ | .pwhilelt _ _ _ _ | .plogicAnd _ _ _ | .plogicOr _ _ _
  | .plogicXor _ _ _ | .plogicAndn _ _ _ | .pcnt _ _ _ | .pfirst _ _ _ | .vli _ _ _ => 2
  | .vperm _ _ _ _ _ | .vslup _ _ _ _ _ | .vsldn _ _ _ _ _ | .vzip _ _ _ _ _ | .vunzip _ _ _ _ _ | .vmvxs _ _ _ _
  | .visumr _ _ _ _ => 4
  | .vfadd _ _ _ _ _ | .vfsub _ _ _ _ _ | .vfmul _ _ _ _ _ | .vfma _ _ _ _ _ | .vfnms _ _ _ _ _ | .vfmin _ _ _ _ _
  | .vfmax _ _ _ _ _ | .vfabs _ _ _ _ | .vfneg _ _ _ _ | .vfceq _ _ _ _ _ | .vfclt _ _ _ _ _ | .vfcle _ _ _ _ _
  | .vfcvt _ _ _ _ _ | .vfcpys _ _ _ _ _ | .vcvtn _ _ _ _ | .vcvtw _ _ _ _ | .vscale _ _ _ _ | .vbmax _ _ _ _
  | .vaddi _ _ _ | .vmuli _ _ _ | .vmaxi _ _ _ | .qrv _ _ | .qrvf _ _ | .qrx _ _ _ | .pipv _ => 6
  | .vfsumr _ _ _ _ | .vfmaxr _ _ _ _ => 10
  | .vld _ _ _ | .vldpi _ _ _ | .vlds _ _ _ _ | .vgath _ _ _ _ | .pldr _ _ | .mrd _ _ _ => 8
  | _ => 1

/-- The latency of one destination: the address update of VLDPI and VSTPI has 1 (R146). -/
def dstLatency (i : Instr) (r : RegId) : Nat :=
  match i, r.file with
  | .vldpi _ _ _, .x => 1
  | .vstpi _ _ _, .x => 1
  | _, _ => latency i

/-- The weight of an instruction in distances: STALL n weighs n (R147). -/
def weight : Instr → Nat
  | .stall n => n.toNat
  | _ => 1

/-! ### Legality -/

/-- CSR numbers that have a register (R137). -/
def csrListed (n : Nat) : Bool :=
  (decide (0xC80 ≤ n) && decide (n ≤ 0xC8D)) || (decide (0x800 ≤ n) && decide (n ≤ 0x804)) || (decide (0x810 ≤ n) && decide (n ≤ 0x817)) ||
  (decide (0x820 ≤ n) && decide (n ≤ 0x826)) || (decide (0x828 ≤ n) && decide (n ≤ 0x82A)) || (decide (0x830 ≤ n) && decide (n ≤ 0x832)) ||
  (decide (0x7C0 ≤ n) && decide (n ≤ 0x7C7))

/-- CSRs that may be written (R137). -/
def csrWritable (n : Nat) : Bool :=
  (decide (0x800 ≤ n) && decide (n ≤ 0x804)) || (decide (0x810 ≤ n) && decide (n ≤ 0x817)) || (decide (0x820 ≤ n) && decide (n ≤ 0x823)) ||
  n == 0x825 || n == 0x828 || n == 0x82A || n == 0x832 || (decide (0x7C0 ≤ n) && decide (n ≤ 0x7C6))

/-- The handler CSRs (R137). -/
def csrHandler (n : Nat) : Bool := decide (0x7C0 ≤ n) && decide (n ≤ 0x7C7)

/-- The legality of a CSR access (R134, R138). -/
def csrLegal (inHandler : Bool) (n : Nat) (writes : Bool) : Bool :=
  csrListed n && (!writes || csrWritable n) && (if inHandler then csrHandler n || n == 0xC8B else !csrHandler n)

/-- The CSR number of a CSR instruction and whether it writes (R138, R177). -/
def csrAccess : Instr → Option (Nat × Bool)
  | .csrrw _ c _ | .csrrwi _ c _ => some (c.toNat, true)
  | .csrrs _ c a | .csrrc _ c a => some (c.toNat, a != 0)
  | .csrrsi _ c u | .csrrci _ c u => some (c.toNat, u != 0)
  | _ => none

/-- The accumulator an instruction names (R136). -/
def accNamed : Instr → Option Acc
  | .mzero m | .mma m _ _ | .mmas m _ _ | .mmav m _ _ | .mwr m _ _ | .mst m _ | .mwait m => some m
  | .mrd _ m _ => some m
  | _ => none

/-- Words the handler slot may run: base words, HRET and STALL (R134). -/
def handlerWord : Instr → Bool
  | .hret _ | .stall _
  | .lui _ _ | .auipc _ _ | .jal _ _ | .jalr _ _ _ | .beq _ _ _ | .bne _ _ _ | .blt _ _ _ | .bge _ _ _ | .bltu _ _ _ | .bgeu _ _ _
  | .lb _ _ _ | .lh _ _ _ | .lw _ _ _ | .ld _ _ _ | .lbu _ _ _ | .lhu _ _ _ | .lwu _ _ _
  | .sb _ _ _ | .sh _ _ _ | .sw _ _ _ | .sd _ _ _
  | .addi _ _ _ | .slti _ _ _ | .sltiu _ _ _ | .xori _ _ _ | .ori _ _ _ | .andi _ _ _ | .slli _ _ _ | .srli _ _ _ | .srai _ _ _
  | .addiw _ _ _ | .slliw _ _ _ | .srliw _ _ _ | .sraiw _ _ _
  | .add _ _ _ | .sub _ _ _ | .sll _ _ _ | .slt _ _ _ | .sltu _ _ _ | .xor _ _ _ | .srl _ _ _ | .sra _ _ _ | .or _ _ _ | .and _ _ _
  | .addw _ _ _ | .subw _ _ _ | .sllw _ _ _ | .srlw _ _ _ | .sraw _ _ _
  | .mul _ _ _ | .mulh _ _ _ | .mulhsu _ _ _ | .mulhu _ _ _ | .div _ _ _ | .divu _ _ _ | .rem _ _ _ | .remu _ _ _
  | .mulw _ _ _ | .divw _ _ _ | .divuw _ _ _ | .remw _ _ _ | .remuw _ _ _
  | .fence _ _ _ | .fenceI | .ecall | .ebreak
  | .csrrw _ _ _ | .csrrs _ _ _ | .csrrc _ _ _ | .csrrwi _ _ _ | .csrrsi _ _ _ | .csrrci _ _ _ => true
  | _ => false

/-- Is a word legal where it stands (R125, R134, R136, R138)? `accs` is the number of accumulators of the task. -/
def legal (inHandler : Bool) (accs : Nat) (i : Instr) : Bool :=
  i.wf &&
  (match csrAccess i with
    | some (n, w) => csrLegal inHandler n w
    | none => true) &&
  (match accNamed i with
    | some m => decide (m.toNat < accs)
    | none => true) &&
  (if inHandler then handlerWord i else match i with
    | .hret _ => false
    | _ => true)

end Sys2Proof.Machine
end

