-- ==== Sys2Proof/Machine/Ops.lean ====
section
/-!
DEFINITION. The named operations: registers, deltas and effects (R52, R54), the checks of an access (R168, R214), taking a
class A trap (R290, R294) and returning from one (R232, R297), and issuing an instruction (R29, R146-R149, R152-R155, R301).
-/

namespace Sys2Proof.Machine

open Sys2Proof

/-! ### Registers -/

/-- x[r]; x0 reads 0 (R135). -/
def Bank.rx (b : Bank) (r : Reg) : Word := if r = 0 then 0 else b.x[r.toNat]
/-- Write x[r]; a write to x0 is discarded (R159). -/
def Bank.wx (b : Bank) (r : Reg) (v : Word) : Bank := if r = 0 then b else { b with x := b.x.set r.toNat v }
def Bank.rv (b : Bank) (r : Reg) : Vec := b.v[r.toNat]
def Bank.wv (b : Bank) (r : Reg) (v : Vec) : Bank := { b with v := b.v.set r.toNat v }
/-- p[r]; p0 reads all ones (R135). -/
def Bank.rp (b : Bank) (r : PReg) : Pred := if r = 0 then BitVec.allOnes 256 else b.p[r.toNat]
/-- Write p[r]; a write to p0 is discarded (R186). -/
def Bank.wp (b : Bank) (r : PReg) (v : Pred) : Bank := if r = 0 then b else { b with p := b.p.set r.toNat v }
/-- The governing predicate (R130). -/
def Bank.rg (b : Bank) (g : Pg) : Pred := b.rp (g.zeroExtend 3)

/-- A register by file and number, widened. -/
def Bank.getReg (b : Bank) (r : RegId) : Vec :=
  match r.file with
  | .x => (b.rx (BitVec.ofNat 5 r.num)).zeroExtend 2048
  | .v => b.rv (BitVec.ofNat 5 r.num)
  | .p => (b.rp (BitVec.ofNat 3 r.num)).zeroExtend 2048

def Bank.setReg (b : Bank) (r : RegId) (v : Vec) : Bank :=
  match r.file with
  | .x => b.wx (BitVec.ofNat 5 r.num) (v.setWidth 64)
  | .v => b.wv (BitVec.ofNat 5 r.num) v
  | .p => b.wp (BitVec.ofNat 3 r.num) (v.setWidth 256)

/-- The bank of the slot that issues. -/
def State.bank (s : State) : Bank := (s.task s.cur).bank
def State.modBank (s : State) (f : Bank → Bank) : State := s.modTask s.cur fun t => { t with bank := f t.bank }
def State.rx (s : State) (r : Reg) : Word := s.bank.rx r
def State.wx (s : State) (r : Reg) (v : Word) : State := s.modBank fun b => b.wx r v

/-- The launch, tile and task of the issuing thread slot; 0 for a handler slot, which never uses them. -/
def State.curL (s : State) : Nat := match s.cur with | .thread l _ _ => l | .handler _ _ => 0
def State.curT (s : State) : Nat := match s.cur with | .thread _ t _ => t | .handler _ _ => 0
def State.curI (s : State) : Nat := match s.cur with | .thread _ _ i => i | .handler _ _ => 0
/-- The package of the issuing slot. -/
def State.curP (s : State) : Nat := match s.cur with | .thread l t _ => s.tilePkg l t | .handler p _ => p
def State.curTile (s : State) : Tile := s.tile s.curL s.curT
def State.modCurTile (s : State) (f : Tile → Tile) : State := s.modTile s.curL s.curT f
def State.curLaunch (s : State) : Launch := s.launch s.curL
/-- The issuing slot runs in handler mode (R8, R134). -/
def State.inHandler (s : State) : Bool := match s.cur with | .thread _ _ _ => false | .handler _ _ => true
/-- PIPKEY of the issuing task (R105, R106). -/
def State.pipkey (s : State) : Word := pipKey s.curLaunch.desc.seed s.curT s.curI

/-! ### Deltas and effects -/

/-- The delta-pool bytes of a tile (R52): 64 a distinct line, 16 a remote atomic, 16 and the rounded payload a message. -/
def State.poolBytes (s : State) (l t : Nat) : Nat :=
  let ps := (s.launch l).pends
  let lines := dedup (ps.flatMap fun p => match p.eff with
    | .tmWrite tgt _ a bs => if tgt == t then (List.range ((a + bs.length + 63) / 64 - a / 64)).map fun j => a / 64 + j else []
    | _ => [])
  let msgs := ps.foldl (fun n p => match p.eff with
    | .atomic tgt _ _ _ => if tgt == t then n + 16 else n
    | .msg tgt bs => if tgt == t then n + 16 + (bs.length + 15) / 16 * 16 else n
    | _ => n) 0
  64 * lines.length + msgs

/-- The tiles an effect charges. -/
def Effect.charged : Effect → List Nat
  | .tmWrite t _ _ _ => [t]
  | .atomic t _ _ _ => [t]
  | .msg t _ => [t]
  | _ => []

/-- Raise 0x43 on every charged tile whose pool is past its size (R52). -/
def State.checkPools (s : State) (l : Nat) (e : Effect) : State :=
  e.charged.foldl (fun s t =>
    if (s.launch l).desc.pool * 0x20000 < s.poolBytes l t then s.raiseB l (s.tilePkg l t) 0x43 else s) s

/-- Hold an effect with its key. -/
def State.addPend (s : State) (l : Nat) (p : Pend) : State :=
  (s.modLaunch l fun x => { x with pends := x.pends ++ [p] }).checkPools l p.eff

/-- Send effects to the package that holds their target (R340): held at once when it is the sender's own, else a packet. -/
def State.send (s : State) (l dst : Nat) (ra : Word) (src : Nat) (ps : List Pend) : State :=
  if dst == src then ps.foldl (fun s p => s.addPend l p) s else s.sendPacket l dst ra src ps none

/-- Effects that a package sends only in CLOSING, held writes to a page homed elsewhere and broadcast writes (R64, R75, R340): taken
at once when the home is the package itself, and sent at once when CLOSING has begun. -/
def State.hold (s : State) (l dst : Nat) (ra : Word) (src : Nat) (ps : List Pend) : State :=
  if dst == src || (s.lpkg l src).phase == .closing then s.send l dst ra src ps
  else { s with fabric := s.fabric ++ [{ src := src, dst := dst, ra := ra.toNat, path := 0, launch := l, pends := ps, gfaa := none, st := .held }] }

/-- The parts of `n` bytes at `a` in each 64-byte line, as offset in the run and length. -/
def lineCuts (a n : Nat) : List (Nat × Nat) :=
  (List.range ((a % 64 + n + 63) / 64)).map fun j =>
    let lo := max (a % 64) (64 * j)
    (lo - a % 64, min (a % 64 + n) (64 * (j + 1)) - lo)

/-- A run of bytes cut at the lines: each line has a packet of its own (R336). -/
def lineRuns (a : Nat) (bs : List Byte) : List (Nat × List Byte) := (lineCuts a bs.length).map fun c => (a + c.1, (bs.drop c.1).take c.2)

/-- The address of a line (R336). -/
def lineOf (a : Nat) : Word := BitVec.ofNat 64 (a / 64 * 64)

/-- The package, routing address and kind (peer TM or global) of a read that crosses the fabric (R336, R340). -/
def State.remoteOf (s : State) (l p va : Nat) : Option (Nat × Word × Bool) :=
  let x := s.launch l
  match regionOf x.desc.tmSize x.desc.ntile va with
  | .peer t _ => if s.tilePkg l t == p then none else some (s.tilePkg l t, lineOf va, true)
  | .glob => match s.xlate l p va with
    | some g => if g.home == p then none else some (g.home, lineOf (g.ppn * 65536 + va % 65536), false)
    | none => none
  | _ => none

/-- A read of a line is lost: it must cross the fabric, which a hit in the die cache spares a global one, and no path is left
(R336, R338, R340). -/
def State.lostRead (s : State) (l p va : Nat) : Bool :=
  match s.remoteOf l p va with
  | some (d, ra, peer) => (s.route p d ra).isNone && (peer || !Config.dieHit (ra.toNat / 64) s.free)
  | none => false

/-- Lost reads among some addresses vote 0x42. -/
def State.voteLost (s : State) (l p : Nat) (as : List Nat) : State := if as.any fun a => s.lostRead l p a then s.raiseB l p 0x42 else s

/-- The key of the issuing task's next effect (R54, R225). -/
def State.curPend (s : State) (e : Effect) : Pend := { tile := s.curT, task := s.curI, seq := s.bank.seq, eff := e }

/-- Queue an effect of the issuing task on its own package. -/
def State.queue (s : State) (e : Effect) : State := s.addPend s.curL (s.curPend e)

/-- Queue an effect on another tile of the launch. -/
def State.queueTo (s : State) (t : Nat) (ra : Word) (e : Effect) : State :=
  s.send s.curL (s.tilePkg s.curL t) ra s.curP [s.curPend e]

/-- Advance the source sequence (R54). -/
def State.advSeq (s : State) : State := s.modBank fun b => { b with seq := b.seq + 1 }

/-! ### The checks of an access (R48, R50, R63, R168, R214) -/

inductive Access where
  | load | store | atomic | copySrc | copyDst | redadd
deriving DecidableEq, Repr

def Access.reads : Access → Bool
  | .load => true
  | .copySrc => true
  | _ => false

/-- The operation is permitted in the byte's region (R48, R63, R366). -/
def State.permitted (s : State) (l p : Nat) (k : Access) (va : Nat) : Bool :=
  let x := s.launch l
  match regionOf x.desc.tmSize x.desc.ntile va with
  | .own _ => k != .redadd
  | .peer _ _ => k != .redadd
  | .devInfo _ => k.reads
  | .l2p _ => k.reads
  | .glob =>
    match s.xlate l p va with
    | none => false
    | some g =>
      !pteSec g.pte && s.physOk g x.dom &&
      (if x.inCounters va then k.reads
       else match k with
        | .load => true
        | .copySrc => true
        | .store => pteW g.pte && !s.isRed l g va
        | .copyDst => pteW g.pte && !s.isRed l g va
        | .redadd => s.isRed l g va
        | .atomic => false)
  | .handlerWin => false
  | .none => false

/-- Block ownership for an access to own TM (R50). -/
def ownerOk (k : Access) (i : Nat) (o : Owner) : Bool :=
  match k, o with
  | .atomic, _ => true
  | .load, .engine _ => false
  | .load, .fetch _ => false
  | .load, _ => true
  | _, .own j => i == j
  | _, _ => false

def Tile.owner (x : Tile) (off : Nat) : Owner := x.ownCur.getD (off / 2048) .ro

/-- The checks of R168 after alignment over the bytes of one piece, each in turn over all bytes: the cause and the
address it is reported for. Of a piece whose bytes lie in two valid regions that is the first byte outside the first one's region (log
entry 90). -/
def State.checkBytes (s : State) (l t i : Nat) (k : Access) (as : List Nat) : Option (BitVec 8 × Nat) :=
  let x := s.launch l
  let p := s.tilePkg l t
  let reg := fun a => regionOf x.desc.tmSize x.desc.ntile a
  match as with
  | [] => none
  | a0 :: _ =>
    match as.find? (fun a => reg a == .none || reg a == .handlerWin || (reg a).tag != (reg a0).tag) with
    | some a => some (0x03, a)
    | none =>
    match as.find? (fun a => match reg a with | .peer tt _ => (s.tile l tt).retired | _ => false) with
    | some a => some (0x06, a)
    | none =>
    match as.find? (fun a => match reg a with | .glob => (s.xlate l p a).isNone | _ => false) with
    | some a => some (0x05, a)
    | none =>
    match as.find? (fun a => !s.permitted l p k a) with
    | some a => some (0x03, a)
    | none =>
    match as.find? (fun a => match reg a with | .own off => !ownerOk k i ((s.tile l t).owner off) | _ => false) with
    | some a => some (0x04, a)
    | none => none

/-- Consecutive addresses from one on. -/
def addrs (a n : Nat) : List Nat := (List.range n).map fun j => (a + j) % 2 ^ 64

def Range.hits (r : Range) (a : Nat) : Bool := decide (r.lo ≤ a) && decide (a ≤ r.hi)

/-- An access of the issuing task that must wait for a range its matrix requests hold (R269): writers for fetch ranges,
every access for store ranges. -/
def Task.rangeBusy (t : Task) (writes : Bool) (as : List Nat) : Bool :=
  t.mreq.any fun m => (writes && m.fetch.any fun r => as.any r.hits) || m.store.any fun r => as.any r.hits

/-- Bytes of own TM among addresses. -/
def State.ownOnly (s : State) (l : Nat) (as : List Nat) : List Nat := as.filter fun a => decide (a < (s.launch l).desc.tmSize)

/-- The effect of writing a run of bytes of one global page (R64): a write to the shadow page when the page's home is the
writer's package, else a held write sent to the home. `key` gives the effect its key. -/
def State.storeGlob (s : State) (l p va : Nat) (bs : List Byte) (key : Effect → Pend) : State :=
  match s.xlate l p va with
  | some g =>
    if g.home == p then
      match s.shadow l g (va / 65536) with
      | some s' => s'.addPend l (key (.gWrite (BitVec.ofNat 64 va) bs))
      | none => (s.addPend l (key (.gWrite (BitVec.ofNat 64 va) bs))).raiseB l p 0x44
    else (lineRuns va bs).foldl (fun s r =>
      s.hold l g.home (lineOf (g.ppn * 65536 + r.1 % 65536)) p [key (.gWrite (BitVec.ofNat 64 r.1) r.2)]) s
  | none => s

/-- The effects of an accepted store of a run of bytes within one region (R169): own or remote delta, or a write to the
shadow page. -/
def State.storeRun (s : State) (va : Nat) (bs : List Byte) : State :=
  let l := s.curL
  let x := s.launch l
  match regionOf x.desc.tmSize x.desc.ntile va with
  | .own off => s.queue (.tmWrite s.curT true off bs)
  | .peer tt off =>
    if s.tilePkg l tt == s.curP then s.queue (.tmWrite tt false off bs)
    else (lineRuns off bs).foldl (fun s r => s.queueTo tt (lineOf (va - off + r.1)) (.tmWrite tt false r.1 r.2)) s
  | .glob => s.storeGlob l s.curP va bs s.curPend
  | _ => s

/-- Group (address, byte) pairs into runs of consecutive addresses within one page. -/
def runs : List (Nat × Byte) → List (Nat × List Byte)
  | [] => []
  | (a, b) :: l =>
    match runs l with
    | (a', bs) :: rest => if a' == a + 1 && a' % 65536 != 0 then (a, b :: bs) :: rest else (a, [b]) :: (a', bs) :: rest
    | [] => [(a, [b])]

/-- Store active bytes, ascending lanes (R217). -/
def State.storeBytes (s : State) (l : List (Nat × Byte)) : State := (runs l).foldl (fun s r => s.storeRun r.1 r.2) s

/-! ### Taking a class A trap and returning from it -/

/-- The encoding of a word, for HTVAL (R126). -/
def wordOf (i : Instr) : Word :=
  match encode i with
  | some w => w.zeroExtend 64
  | none => 0

/-- Escalate the trap of a frozen task: it waits for firmware (R298). -/
def Task.escalate (t : Task) : Task :=
  match t.status with
  | .frozen r => { t with status := .escalated r }
  | _ => t

/-- Log a type 1 event (R298, R365): physical tile id, task, HPC, HTVAL, outcome. -/
def State.logTrap (s : State) (l t i : Nat) (r : TrapRec) (pc : Word) (outcome : Nat) : State :=
  let x := s.launch l
  let phys := (s.tile l t).phys
  s.logEvent (physPkg phys) x.dom 1 r.cause.toNat x.id
    (natLe 8 phys ++ natLe 8 i ++ natLe 8 pc.toNat ++ natLe 8 r.tval.toNat ++ natLe 8 outcome)

/-- An access of a physical tile, for a launch, that the region table refuses is logged as event 8 (R366). -/
def State.logRegion (s : State) (l p phys va : Nat) : State :=
  let x := s.launch l
  match (if isGlob va then s.xlate l p va else none) with
  | some g => if s.physOk g x.dom then s else
      s.logEvent p x.dom 8 3 x.id (natLe 8 phys ++ natLe 8 (g.ppn * 65536 + va % 65536))
  | none => s

/-- TAKING AN EXCEPTION: the slot raises class A trap `cause` with HTVAL `tval` at its present instruction, which has had
no effect. A thread slot's task freezes with HCAUSE, HPC, HTVAL and HSTATUS captured (R160, R290, R294), REPSTATE holding
the trapping repetition (R155); distances end (R147). A stream skew with HTVAL other than 1 ends the launch with 0x85
(R320). A trap in a handler slot escalates the trap it serves, and the slot takes its next one (R298). -/
def takeTrap (s : State) (cause : BitVec 8) (tval : Word) (cmp : Option (BitVec 2)) : State :=
  match s.cur with
  | .thread l t i =>
    let x := s.launch l
    let y := s.lpkg l (s.tilePkg l t)
    let k := s.task s.cur
    let r : TrapRec := { cause := cause, pc := k.bank.pc, tval := tval, inrep := k.rep.isSome, cmp := cmp, alt := false, det := x.desc.det,
                         rerun := y.reexec != 0, serial := x.serial, delivered := false }
    if cause = 0x0B ∧ tval ≠ 1 then ((s.logTrap l t i r k.bank.pc 0x85).launchFault l 0x85)
    else
      let s := if cause = 0x03 then s.logRegion l (s.tilePkg l t) (s.tile l t).phys tval.toNat else s
      s.modTask s.cur fun k =>
        { k with status := .frozen r, haz := [], rep := none, inSeq := false, pair := none, noCmp := false,
                 bank := match k.rep with
                   | some (rem, it) => { k.bank with repRemain := rem, repIter := it }
                   | none => k.bank }
  | .handler p phys =>
    match (s.handler p phys).serving with
    | some (k, _) =>
      let s := match (if cause = 0x03 then slotLaunch k else none) with
        | some l => s.logRegion l p (p * 2048 + phys % 2048) tval.toNat
        | none => s
      (s.modTask k Task.escalate).handlerEnd p phys
    | none => s

/-- Kill a task (R24, R297): everything it queued in the superstep for commit is discarded, with its matrix requests,
copies and SFU results, and its reservations are released. GFAAs and fetch lists stand. -/
def killTask (s : State) (l t i : Nat) : State :=
  let mine := fun (p : Pend) => p.tile == t && p.task == i
  let s := s.releaseRes l mine
  let s := s.modLaunch l fun x => { x with pends := x.pends.filter fun p => !mine p }
  let s := { s with fabric := s.fabric.filter fun k => !(k.launch == l && k.pends.any mine) }
  let s := s.modTile l t fun x =>
    { x with copies := x.copies.filter fun c => c.task != i, sfu := x.sfu.filter fun q => q.task != i,
             ownCur := x.ownCur.map fun o => match o with | .engine j => if j == i then .own j else o | _ => o }
  let s := s.modTask (.thread l t i) fun k => { k with status := .killed, mreq := [], pend := [], haz := [], stall := none }
  s.checkClosing l (s.tilePkg l t)

/-- RETURN FROM AN EXCEPTION: resume a frozen task (R155, R232, R297) at HPC (`skip` false) or past the trapping
instruction or repetition (`skip` true). -/
def resumeTask (s : State) (k : Slot) (skip : Bool) : State :=
  s.modTask k fun t =>
    match t.status with
    | .frozen r | .escalated r =>
      let b := t.bank
      let b' :=
        if !skip then b
        else if r.inrep && b.pc == r.pc then
          if b.repRemain.toNat ≤ 1 then { b with repRemain := 0, repIter := 0, pc := b.pc + 8 }
          else { b with repRemain := b.repRemain - 1, repIter := b.repIter + 1 }
        else { b with pc := b.pc + 4 }
      { t with status := .running, bank := b', noCmp := !skip }
    | _ => t

/-! ### Issuing an instruction -/

/-- What the body of an instruction answers: not ready, a class A trap, its effect with the next pc, or its effect with a
jump. -/
inductive Act where
  | wait
  | trap (cause : BitVec 8) (tval : Word)
  | done (s : State)
  | jump (s : State) (dst : Word)

/-- Every lower-numbered task of the tile has ended its part of the superstep (R324, a serialised re-run). -/
def State.serialOk (s : State) (l t i : Nat) : Bool :=
  !(s.launch l).serial || (List.range i).all fun j => (s.task (.thread l t j)).status.atBarrier

/-- The slot may issue: its task runs, no STALL counts, its launch computes with no early abort, its wave is the running
one, no SFU request holds it under TRAPEN, and the package has power (R23, R25, R29, R109, R180, R377). -/
def State.canIssue (s : State) (k : Slot) : Bool :=
  let t := s.task k
  t.status == .running && t.stall == none &&
  match k with
  | .thread l tl i =>
    let x := s.lpkg l (s.tilePkg l tl)
    let y := s.tile l tl
    x.phase == .compute && x.causes == [] && (s.pkg (s.tilePkg l tl)).drain == .none && !y.parked && y.wave == x.wave &&
      !(t.bank.trapen != 0 && y.sfu.any fun q => q.task == i) && s.serialOk l tl i
  | .handler p phys => (s.handler p phys).serving.isSome && (s.pkg p).drain == .none

/-- SMODE allows a match (R300). -/
def smodeOk (mode : Nat) (sstep reexec sval : Nat) : Bool :=
  mode == 0 || (mode == 1 && sstep == sval) || (mode == 2 && reexec != 0)

/-- The lowest-numbered comparator that matches the issuing task's pc (R300, R301); `rep` is the repetition about to run
and whether it is the first. -/
def State.cmpMatch (s : State) (rep : Option (Nat × Bool)) : Option (BitVec 2) :=
  match s.cur with
  | .handler _ _ => none
  | .thread l t i =>
    let c := s.cmp (s.tilePkg l t) (s.tile l t).phys
    let y := s.lpkg l (s.tilePkg l t)
    let k := s.task s.cur
    if k.noCmp then none
    else ((List.range 4).find? fun n =>
      let h := bits c.hbrk.toNat (16 * n) 16
      bitAt h 0 && bitAt (bits h 10 4) i && smodeOk (bits h 8 2) y.sstep y.reexec (c.sval[n % 4]).toNat &&
        (c.pc[n % 4]).toNat / 4 == k.bank.pc.toNat / 4 &&
        match rep with
        | none => true
        | some (it, first) => if bitAt h 1 then first else it == bits h 2 6).map fun n => BitVec.ofNat 2 n

/-- Sources read below their latency (R147, R149), each with the distance to this instruction. -/
def shortReads (t : Task) (i : Instr) : List (Haz × Nat) :=
  (t.haz.filter fun h => (srcs i).contains h.reg && decide (h.dist + weight i < h.lat)).map fun h => (h, h.dist + weight i)

/-- The file number of R149 and R157. -/
def File.code : File → Nat
  | .x => 0 | .v => 1 | .p => 2

/-- The reported short read: smallest distance, then file, then register number (R157). -/
def worstRead (l : List (Haz × Nat)) : Option (Haz × Nat) :=
  l.foldl (fun acc e => match acc with
    | none => some e
    | some f => if e.2 * 1024 + e.1.reg.file.code * 64 + e.1.reg.num < f.2 * 1024 + f.1.reg.file.code * 64 + f.1.reg.num then some e else some f) none

/-- HTVAL of a stall check (R149). -/
def stallTval (h : Haz) (d : Nat) : Word := BitVec.ofNat 64 (d % 65536 + h.lat * 65536 + h.reg.num * 2 ^ 32 + h.reg.file.code * 2 ^ 37)

/-- In mode 0, the registers that C reads as they were before P: a free choice for each (R149). -/
def staleReads (s : State) (l : List (Haz × Nat)) : List Haz :=
  (l.zipIdx.filter fun e => Config.stallOld (s.free + e.2)).map fun e => e.1.1

/-- Show the issuing task its old values of some registers, and keep what they hold. -/
def State.withOld (s : State) (hs : List Haz) : State :=
  if hs == [] then s
  else s.modTask s.cur fun t =>
    { t with newer := hs.map (fun h => (h.reg, t.bank.getReg h.reg)), bank := hs.foldl (fun b h => b.setReg h.reg h.old) t.bank }

/-- A vector register as it stands, also while it is read as it was before P: what a merge leaves unchanged (R149, R185,
R213). -/
def State.vKept (s : State) (r : Reg) : Vec :=
  match Tab.find (s.task s.cur).newer { file := .v, num := r.toNat } with
  | some v => v
  | none => s.bank.rv r

/-- Distances after an instruction: those below L grow by its weight; its results start theirs (R147). -/
def newHaz (i : Instr) (before : Task) (after : Task) : List Haz :=
  let old := ((after.haz.filter fun h => !(dsts i).contains h.reg).map fun h => { h with dist := h.dist + weight i }).filter
    fun h => decide (h.dist + 1 < h.lat)
  let new := ((dsts i).filter fun r => decide (1 < dstLatency i r) && !after.pend.any fun q => q.dst == r).map fun r =>
    { reg := r, lat := dstLatency i r, dist := 0, old := before.bank.getReg r : Haz }
  old ++ new

/-- A result of the issuing task is still to be written to a register: an interlocked one, or that of an SFU request (R146, R198). -/
def State.comesLater (s : State) (r : RegId) : Bool :=
  ((s.task s.cur).pend.any fun q => q.dst == r) || s.curTile.sfu.any fun q => q.task == s.curI && r == { file := .v, num := q.vd.toNat }

/-- Complete an instruction: the pc moves, or REPSTATE counts the repetition (R153-R155, R181), and distances move on.
`seen` are the registers shown with their old values, put back unless written: by a result that does not come later, or by the
write-back of a descriptor, which ends the register's distance (R261). -/
def State.retire (s0 s1 : State) (i : Instr) (seen : List Haz) (dst : Option Word) : State :=
  let t0 := s0.task s0.cur
  let t1 := s1.task s0.cur
  let b := seen.foldl (fun b h =>
    if (dsts i).contains h.reg && !s1.comesLater h.reg || !t1.haz.any (fun g => g.reg == h.reg) then b else b.setReg h.reg (t0.bank.getReg h.reg)) t1.bank
  let (b, inSeq) := match t0.rep with
    | some (rem, it) =>
      if rem.toNat ≤ 1 then ({ b with repRemain := 0, repIter := 0, pc := t0.bank.pc + 8 }, false)
      else ({ b with repRemain := rem - 1, repIter := it + 1 }, true)
    | none => ({ b with pc := match dst with | some a => a | none => t0.bank.pc + 4 }, false)
  s1.setTask s0.cur { t1 with bank := b, haz := newHaz i t0 { t1 with bank := b }, newer := [], rep := none, inSeq := inSeq,
                              pair := if inSeq then t1.pair else none, noCmp := false }

/-- An attempt to issue that finds the instruction not ready changes nothing of the machine; it is not counted as issued. -/
def State.notReady (s : State) : State :=
  let s1 := { s with pace := { s.pace with issued := s.pace.issued - 1 } }
  if (s.task s.cur).rep.isSome then s1.modTask s.cur fun t => { t with rep := none, pair := if t.inSeq then t.pair else none } else s1

/-- The accumulators a task owns (R136). -/
def State.accs (s : State) : Nat := if s.inHandler then 0 else s.curLaunch.desc.accs

/-- An interlocked result that the instruction reads or would write is still on its way (R146, R147). -/
def interlocked (t : Task) (i : Instr) : Bool := t.pend.any fun q => (srcs i).contains q.dst || (dsts i).contains q.dst

/-- A v register that one of the task's SFU requests will write (R198). -/
def State.sfuBusy (s : State) (i : Instr) : Bool :=
  s.curTile.sfu.any fun q => q.task == s.curI &&
    let r : RegId := { file := .v, num := q.vd.toNat }
    (srcs i).contains r || (dsts i).contains r

/-- The task's matrix queue is full (R40). -/
def State.matFull (s : State) : Bool := decide (8 ≤ (s.task s.cur).mreq.length)

/-- The accumulator of the tile that a task's accumulator number names (R9, R136). -/
def State.accIndex (s : State) (m : Acc) : Nat := s.curI * s.curLaunch.desc.accs + m.toNat

/-- No request of the task names an accumulator (R272, R275). -/
def State.accIdle (s : State) (m : Acc) : Bool := !(s.task s.cur).mreq.any fun q => q.acc == s.accIndex m

/-- The instruction is not ready, before any of its checks: a matrix request while its task's queue is full (R267), MRD while
its accumulator has a pending request (R146, R272). -/
def State.matWait (s : State) (i : Instr) : Bool :=
  match i with
  | .mzero _ | .mma _ _ _ | .mmas _ _ _ | .mmav _ _ _ | .mwr _ _ _ | .mst _ _ => s.matFull
  | .mrd _ m _ => !s.accIdle m
  | _ => false

/-- Run the body of an instruction that issues, and complete it. -/
def State.runBody (s : State) (i : Instr) (seen : List Haz) (body : State → Act) : State :=
  match body (s.withOld seen) with
  | .wait => s.notReady
  | .trap c v => takeTrap s c v none
  | .done s1 => s.retire s1 i seen none
  | .jump s1 a => s.retire s1 i seen (some a)

/-- ISSUE: what every instruction word does around its own effect. In order: can the slot issue; is a matrix request or an
MRD ready; is the word legal (0x01); does a comparator match (0x08, before every other trap but 0x01); are its interlocked registers ready; the stall check by
STALLCHK.MODE (0x07, waiting, or old values); then its body. -/
def issue (i : Instr) (s : State) (body : State → Act) : Host.Outcome State Fault Refusal :=
  let t := s.task s.cur
  if !s.canIssue s.cur || s.matWait i then .next s.notReady
  else if !legal s.inHandler s.accs i then .next (takeTrap s 0x01 (wordOf i) none)
  else match (if t.rep.isSome then none else s.cmpMatch none) with
  | some c => .next (takeTrap s 0x08 0 (some c))
  | none =>
    if interlocked t i || (!s.inHandler && s.sfuBusy i) then .next s.notReady
    else
      let short := if s.inHandler then [] else shortReads t i
      match t.bank.stallchk.toNat, worstRead short with
      | 1, some (h, d) => .next (takeTrap s 0x07 (stallTval h d) none)
      | 0, some _ => .next { s.runBody i (staleReads s short) body with free := s.free + 32 }
      | _, _ => .next (s.runBody i [] body)

/-- What every event does around its own effect: a term that names no object of the part is no event of it
(`ok` is the term's own check of Instr.wf). -/
def event (ok : Bool) (s : State) (f : State → State) : Host.Outcome State Fault Refusal :=
  if ok then .next (f s) else .fault .noSuchObject

end Sys2Proof.Machine
end

