-- ==== Sys2Proof/Machine/Fetch.lean ====
section
/-!
DEFINITION. Fetching an instruction's bytes (R140, R293) and the placing of a program so that the next step runs it.
-/

namespace Sys2Proof.Machine

open Sys2Proof

/-- The domain whose handler image a handler slot runs: that of the launch it serves (R293). -/
def State.servedLaunch (s : State) (p phys : Nat) : Nat :=
  match (s.handler p phys).serving with
  | some (.thread l _ _, _) => l
  | _ => 0

/-- The four bytes at a thread slot's pc, or the trap of the fetch (R140). -/
def fetchThread (s : State) (l p : Nat) (pc : Nat) : Except (BitVec 8 × Word) (List Byte) :=
  if pc % 4 != 0 then .error (0x02, BitVec.ofNat 64 pc)
  else if !isGlob pc then .error (0x03, BitVec.ofNat 64 pc)
  else match s.xlate l p pc with
    | none => .error (0x05, BitVec.ofNat 64 pc)
    | some g =>
      if pteSec g.pte || pteRed g.pte || (s.launch l).inCounters pc || !s.physOk g (s.launch l).dom then .error (0x03, BitVec.ofNat 64 pc)
      else .ok ((List.range 4).map fun j => s.physByte p g.home g.ppn (pc % 65536 + j))

/-- The four bytes at a handler slot's pc, from a page that is read-only to tiles (R293). -/
def fetchHandler (s : State) (l p : Nat) (pc : Nat) : Except (BitVec 8 × Word) (List Byte) :=
  if pc % 4 != 0 then .error (0x02, BitVec.ofNat 64 pc)
  else if !isGlob pc then .error (0x03, BitVec.ofNat 64 pc)
  else match s.xlate l p pc with
    | none => .error (0x05, BitVec.ofNat 64 pc)
    | some g =>
      if pteSec g.pte || pteRed g.pte || pteW g.pte || !s.physOk g (s.launch l).dom then .error (0x03, BitVec.ofNat 64 pc)
      else .ok ((List.range 4).map fun j => s.physByte p g.home g.ppn (pc % 65536 + j))

/-- A word of the REP sequence that the issuing slot is in, which is not fetched again (R181). -/
def State.heldWord (s : State) (pc : Word) : Option IWord :=
  let t := s.task s.cur
  match (if t.inSeq then t.pair else none) with
  | some (a, b) => if pc == t.bank.pc then some a else if pc == t.bank.pc + 4 then some b else none
  | none => none

/-- Fetch at an address for the issuing slot. -/
def fetchAt (s : State) (pc : Word) : Except (BitVec 8 × Word) (List Byte) :=
  match s.heldWord pc with
  | some w => .ok (bytesOfWord w)
  | none =>
    match s.cur with
    | .thread l t _ => fetchThread s l (s.tilePkg l t) pc.toNat
    | .handler p phys => fetchHandler s (s.servedLaunch p phys) p pc.toNat

/-- The instruction at an address: the decoder's, or the illegal-instruction step of a word it refuses (R126). -/
def fetchInstr (s : State) (pc : Word) : Except (BitVec 8 × Word) Instr :=
  match fetchAt s pc with
  | .error e => .error e
  | .ok bs => match decode (wordOfBytes bs) with
    | .ok i => .ok i
    | .error _ => .ok (.illegalInstruction (wordOfBytes bs))

/-- The line of an instruction that would issue must cross the fabric, and no path is left (R338, R340): the launch and
package that vote 0x42. -/
def State.fetchLost (s : State) : Option (Nat × Nat) :=
  let l := match s.cur with
    | .thread l _ _ => l
    | .handler p phys => s.servedLaunch p phys
  if (s.heldWord s.bank.pc).isNone && s.lostRead l s.curP s.bank.pc.toNat then some (l, s.curP) else none

/-- The trap of a fetch; a comparator that matches the address, in which bits [1:0] do not count, precedes it, the 0x02 of a task resumed
at a misaligned address included (R140, R300, R301; log entry 79). -/
def fetchTrap (s : State) (c : BitVec 8) (v : Word) : State :=
  match s.cmpMatch none with
  | some n => takeTrap s 0x08 0 (some n)
  | none => takeTrap s c v none

/-! ### Placing a program (a log entry says what this stands for) -/

/-- Descriptor of the placed launch: one tile, one task, 16 accumulators, pool code 1, entry at the start of the global
text section (R143). -/
def placedDesc : Desc :=
  { Desc.zero with version := 0x00010001, entry := 0x0000100001000000, ntile := 1, tasks := 1, accs := 16, pool := 1, minDies := 1,
                   maxDies := 1, npkg := 1, dieMask := 1, ctxVa := 0x0000100002000000, altVa := 0x0000100003000000, id := 1 }

/-- Page-table bytes of the placed program: root at page 1, level 1 at page 2, level 2 at page 3, and the program's page 4
mapped at the entry (R62). Indices of the entry: 16, 0 and 0x100. -/
def placedTables : Memory :=
  Memory.cells (0x10000 + 8 * 16) (natLe 8 0x20001) ++ Memory.cells 0x20000 (natLe 8 0x30001) ++
    Memory.cells (0x30000 + 8 * 0x100) (natLe 8 0x40001)

/-- A package with bring-up done, domain 0 configured with every die and a region over the program's pages, and the bytes
of a program at the entry. -/
def placedPkg (x : Pkg) (bs : List Byte) : Pkg :=
  let d := { (x.dom 0) with configured := true, cfg := { DomCfg.zero with dies := 0xFF, hbmStacks := 0xFFFF, root := 0x10000 } }
  { (x.setDom 0 d) with boot := { x.boot with step := 8 }, hbm := placedTables ++ Memory.cells 0x40000 bs,
                        regions := [BitVec.ofNat 64 (1 + 0x200000 * 2 ^ 40)] }

/-- Put a program's bytes where the machine fetches next: a launch of domain 0 on package 0 whose one task is about to
issue its first instruction. -/
def State.withProgram (s : State) (bs : List Byte) : State :=
  let t := startTask placedDesc
  let l : Launch := { Launch.zero with id := 1, desc := placedDesc, pkgs := [0], dies := [(0, 0)], started := 1,
                                       lp := [(0, { LPkg.zero with phase := .compute })] }
  let o := List.replicate 960 (Owner.own 0)
  { s with cur := .thread 0 0 0, agenda := [], pace := { wheel := 0, turn := 0, issued := 0, mark := 0 }, tasks := [(.thread 0 0 0, t)], launches := [(0, l)],
           tiles := [((0, 0), { Tile.zero with own := o, ownCur := o, qrtab := defaultTable })],
           pkgs := [(0, placedPkg (s.pkg 0) bs)] }

end Sys2Proof.Machine
end

