-- ==== Sys2Proof/Machine/Scalar.lean ====
section
/-!
DEFINITION. Integer computation, control transfer, fences, calls and breakpoints (R159-R166, R173-R175).
-/

namespace Sys2Proof.Machine

open Sys2Proof

/-- Sign-extended 12-bit immediate. -/
def imm12 (i : BitVec 12) : Word := i.signExtend 64
/-- The 32-bit result of a word form, sign-extended (R90). -/
def sextW (v : BitVec 32) : Word := v.signExtend 64
def lowW (v : Word) : BitVec 32 := v.setWidth 32
def boolW (b : Bool) : Word := if b then 1 else 0

/-- Write x[rd] and go on. -/
def State.put (s : State) (rd : Reg) (v : Word) : Act := .done (s.wx rd v)

/-- Write x[rd] by an operation of x[rs1] and x[rs2]. -/
def alu (i : Instr) (rd rs1 rs2 : Reg) (f : Word → Word → Word) (s : State) : Host.Outcome State Fault Refusal :=
  issue i s fun s => s.put rd (f (s.rx rs1) (s.rx rs2))

/-- Write x[rd] by an operation of x[rs1]. -/
def alui (i : Instr) (rd rs1 : Reg) (f : Word → Word) (s : State) : Host.Outcome State Fault Refusal :=
  issue i s fun s => s.put rd (f (s.rx rs1))

/-- An interlocked result starts on its way to a register; a result for x0 is discarded (R146, R159). -/
def State.later (s : State) (r : RegId) (q : ResSrc) : State :=
  if r.num == 0 && r.file != .v then s else s.modTask s.cur fun t => { t with pend := t.pend ++ [{ dst := r, src := q }] }

/-- A divide form: its quotient or remainder arrives later (R146). -/
def divider (i : Instr) (rd rs1 rs2 : Reg) (f : Word → Word → Word) (s : State) : Host.Outcome State Fault Refusal :=
  issue i s fun s => .done (s.later { file := .x, num := rd.toNat } (.divide ((f (s.rx rs1) (s.rx rs2)).setWidth 2048)))

def execAddi (rd rs1 : Reg) (imm : BitVec 12) (s : State) := alui (.addi rd rs1 imm) rd rs1 (· + imm12 imm) s
def execSlti (rd rs1 : Reg) (imm : BitVec 12) (s : State) := alui (.slti rd rs1 imm) rd rs1 (fun a => boolW (a.slt (imm12 imm))) s
def execSltiu (rd rs1 : Reg) (imm : BitVec 12) (s : State) := alui (.sltiu rd rs1 imm) rd rs1 (fun a => boolW (a.ult (imm12 imm))) s
def execXori (rd rs1 : Reg) (imm : BitVec 12) (s : State) := alui (.xori rd rs1 imm) rd rs1 (· ^^^ imm12 imm) s
def execOri (rd rs1 : Reg) (imm : BitVec 12) (s : State) := alui (.ori rd rs1 imm) rd rs1 (· ||| imm12 imm) s
def execAndi (rd rs1 : Reg) (imm : BitVec 12) (s : State) := alui (.andi rd rs1 imm) rd rs1 (· &&& imm12 imm) s
def execSlli (rd rs1 : Reg) (sh : BitVec 6) (s : State) := alui (.slli rd rs1 sh) rd rs1 (· <<< sh.toNat) s
def execSrli (rd rs1 : Reg) (sh : BitVec 6) (s : State) := alui (.srli rd rs1 sh) rd rs1 (· >>> sh.toNat) s
def execSrai (rd rs1 : Reg) (sh : BitVec 6) (s : State) := alui (.srai rd rs1 sh) rd rs1 (·.sshiftRight sh.toNat) s
def execAddiw (rd rs1 : Reg) (imm : BitVec 12) (s : State) :=
  alui (.addiw rd rs1 imm) rd rs1 (fun a => sextW (lowW (a + imm12 imm))) s
def execSlliw (rd rs1 : Reg) (sh : BitVec 5) (s : State) := alui (.slliw rd rs1 sh) rd rs1 (fun a => sextW (lowW a <<< sh.toNat)) s
def execSrliw (rd rs1 : Reg) (sh : BitVec 5) (s : State) := alui (.srliw rd rs1 sh) rd rs1 (fun a => sextW (lowW a >>> sh.toNat)) s
def execSraiw (rd rs1 : Reg) (sh : BitVec 5) (s : State) :=
  alui (.sraiw rd rs1 sh) rd rs1 (fun a => sextW ((lowW a).sshiftRight sh.toNat)) s

/-- Shift amounts are taken mod the width (R90). -/
def sh6 (b : Word) : Nat := b.toNat % 64
def sh5 (b : Word) : Nat := b.toNat % 32

def execAdd (rd rs1 rs2 : Reg) (s : State) := alu (.add rd rs1 rs2) rd rs1 rs2 (· + ·) s
def execSub (rd rs1 rs2 : Reg) (s : State) := alu (.sub rd rs1 rs2) rd rs1 rs2 (· - ·) s
def execSll (rd rs1 rs2 : Reg) (s : State) := alu (.sll rd rs1 rs2) rd rs1 rs2 (fun a b => a <<< sh6 b) s
def execSlt (rd rs1 rs2 : Reg) (s : State) := alu (.slt rd rs1 rs2) rd rs1 rs2 (fun a b => boolW (a.slt b)) s
def execSltu (rd rs1 rs2 : Reg) (s : State) := alu (.sltu rd rs1 rs2) rd rs1 rs2 (fun a b => boolW (a.ult b)) s
def execXor (rd rs1 rs2 : Reg) (s : State) := alu (.xor rd rs1 rs2) rd rs1 rs2 (· ^^^ ·) s
def execSrl (rd rs1 rs2 : Reg) (s : State) := alu (.srl rd rs1 rs2) rd rs1 rs2 (fun a b => a >>> sh6 b) s
def execSra (rd rs1 rs2 : Reg) (s : State) := alu (.sra rd rs1 rs2) rd rs1 rs2 (fun a b => a.sshiftRight (sh6 b)) s
def execOr (rd rs1 rs2 : Reg) (s : State) := alu (.or rd rs1 rs2) rd rs1 rs2 (· ||| ·) s
def execAnd (rd rs1 rs2 : Reg) (s : State) := alu (.and rd rs1 rs2) rd rs1 rs2 (· &&& ·) s
def execAddw (rd rs1 rs2 : Reg) (s : State) := alu (.addw rd rs1 rs2) rd rs1 rs2 (fun a b => sextW (lowW a + lowW b)) s
def execSubw (rd rs1 rs2 : Reg) (s : State) := alu (.subw rd rs1 rs2) rd rs1 rs2 (fun a b => sextW (lowW a - lowW b)) s
def execSllw (rd rs1 rs2 : Reg) (s : State) := alu (.sllw rd rs1 rs2) rd rs1 rs2 (fun a b => sextW (lowW a <<< sh5 b)) s
def execSrlw (rd rs1 rs2 : Reg) (s : State) := alu (.srlw rd rs1 rs2) rd rs1 rs2 (fun a b => sextW (lowW a >>> sh5 b)) s
def execSraw (rd rs1 rs2 : Reg) (s : State) := alu (.sraw rd rs1 rs2) rd rs1 rs2 (fun a b => sextW ((lowW a).sshiftRight (sh5 b))) s

/-- Bits [127:64] of an exact product (R90). -/
def high64 (p : Int) : Word := BitVec.ofInt 64 (p / 2 ^ 64)

def execMul (rd rs1 rs2 : Reg) (s : State) := alu (.mul rd rs1 rs2) rd rs1 rs2 (· * ·) s
def execMulh (rd rs1 rs2 : Reg) (s : State) := alu (.mulh rd rs1 rs2) rd rs1 rs2 (fun a b => high64 (a.toInt * b.toInt)) s
def execMulhsu (rd rs1 rs2 : Reg) (s : State) := alu (.mulhsu rd rs1 rs2) rd rs1 rs2 (fun a b => high64 (a.toInt * b.toNat)) s
def execMulhu (rd rs1 rs2 : Reg) (s : State) := alu (.mulhu rd rs1 rs2) rd rs1 rs2 (fun a b => high64 (a.toNat * b.toNat)) s
def execMulw (rd rs1 rs2 : Reg) (s : State) := alu (.mulw rd rs1 rs2) rd rs1 rs2 (fun a b => sextW (lowW a * lowW b)) s

/-- Division (R90): by zero, all ones and the dividend; the signed overflow wraps; else truncated toward zero. -/
def quotS {w : Nat} (a b : BitVec w) : BitVec w := if b = 0 then BitVec.allOnes w else BitVec.ofInt w (a.toInt.tdiv b.toInt)
def remS {w : Nat} (a b : BitVec w) : BitVec w := if b = 0 then a else BitVec.ofInt w (a.toInt.tmod b.toInt)
def quotU {w : Nat} (a b : BitVec w) : BitVec w := if b = 0 then BitVec.allOnes w else BitVec.ofNat w (a.toNat / b.toNat)
def remU {w : Nat} (a b : BitVec w) : BitVec w := if b = 0 then a else BitVec.ofNat w (a.toNat % b.toNat)

def execDiv (rd rs1 rs2 : Reg) (s : State) := divider (.div rd rs1 rs2) rd rs1 rs2 quotS s
def execDivu (rd rs1 rs2 : Reg) (s : State) := divider (.divu rd rs1 rs2) rd rs1 rs2 quotU s
def execRem (rd rs1 rs2 : Reg) (s : State) := divider (.rem rd rs1 rs2) rd rs1 rs2 remS s
def execRemu (rd rs1 rs2 : Reg) (s : State) := divider (.remu rd rs1 rs2) rd rs1 rs2 remU s
def execDivw (rd rs1 rs2 : Reg) (s : State) := divider (.divw rd rs1 rs2) rd rs1 rs2 (fun a b => sextW (quotS (lowW a) (lowW b))) s
def execDivuw (rd rs1 rs2 : Reg) (s : State) := divider (.divuw rd rs1 rs2) rd rs1 rs2 (fun a b => sextW (quotU (lowW a) (lowW b))) s
def execRemw (rd rs1 rs2 : Reg) (s : State) := divider (.remw rd rs1 rs2) rd rs1 rs2 (fun a b => sextW (remS (lowW a) (lowW b))) s
def execRemuw (rd rs1 rs2 : Reg) (s : State) := divider (.remuw rd rs1 rs2) rd rs1 rs2 (fun a b => sextW (remU (lowW a) (lowW b))) s

/-- The quotient arrives: the divider writes its result (R146). -/
def execDivideComplete (slot : Slot) (s : State) : Host.Outcome State Fault Refusal :=
  event slot.wf s fun s =>
    match (s.task slot).pend.find? (fun q => match q.src with | .divide _ => true | _ => false) with
    | some q => s.modTask slot fun t =>
        { t with pend := t.pend.erase q, bank := match q.src with | .divide v => t.bank.setReg q.dst v | _ => t.bank }
    | none => s

/-! ### Control transfer (R164-R166) -/

/-- sext(imm20 << 12) (R164). -/
def imm20u (imm : BitVec 20) : Word := (imm.setWidth 32 <<< 12).signExtend 64

def execLui (rd : Reg) (imm : BitVec 20) (s : State) : Host.Outcome State Fault Refusal :=
  issue (.lui rd imm) s fun s => s.put rd (imm20u imm)
def execAuipc (rd : Reg) (imm : BitVec 20) (s : State) : Host.Outcome State Fault Refusal :=
  issue (.auipc rd imm) s fun s => s.put rd (s.bank.pc + imm20u imm)

/-- Jump to `t`, or trap 0x02 when its bit 1 is set (R164). -/
def jumpTo (s1 : State) (t : Word) : Act := if t.getLsbD 1 then .trap 0x02 t else .jump s1 t

def execJal (rd : Reg) (imm : BitVec 20) (s : State) : Host.Outcome State Fault Refusal :=
  issue (.jal rd imm) s fun s => jumpTo (s.wx rd (s.bank.pc + 4)) (s.bank.pc + imm.signExtend 64 <<< 1)
def execJalr (rd rs1 : Reg) (imm : BitVec 12) (s : State) : Host.Outcome State Fault Refusal :=
  issue (.jalr rd rs1 imm) s fun s => jumpTo (s.wx rd (s.bank.pc + 4)) ((s.rx rs1 + imm12 imm) &&& ~~~1)

/-- A branch (R165). -/
def branch (i : Instr) (rs1 rs2 : Reg) (imm : BitVec 12) (c : Word → Word → Bool) (s : State) : Host.Outcome State Fault Refusal :=
  issue i s fun s => if c (s.rx rs1) (s.rx rs2) then jumpTo s (s.bank.pc + imm.signExtend 64 <<< 1) else .done s

def execBeq (rs1 rs2 : Reg) (imm : BitVec 12) (s : State) := branch (.beq rs1 rs2 imm) rs1 rs2 imm (fun a b => a == b) s
def execBne (rs1 rs2 : Reg) (imm : BitVec 12) (s : State) := branch (.bne rs1 rs2 imm) rs1 rs2 imm (fun a b => a != b) s
def execBlt (rs1 rs2 : Reg) (imm : BitVec 12) (s : State) := branch (.blt rs1 rs2 imm) rs1 rs2 imm (fun a b => a.slt b) s
def execBge (rs1 rs2 : Reg) (imm : BitVec 12) (s : State) := branch (.bge rs1 rs2 imm) rs1 rs2 imm (fun a b => !a.slt b) s
def execBltu (rs1 rs2 : Reg) (imm : BitVec 12) (s : State) := branch (.bltu rs1 rs2 imm) rs1 rs2 imm (fun a b => a.ult b) s
def execBgeu (rs1 rs2 : Reg) (imm : BitVec 12) (s : State) := branch (.bgeu rs1 rs2 imm) rs1 rs2 imm (fun a b => !a.ult b) s

/-! ### Fences, calls, breakpoints, STALL (R173-R175, R180) -/

def execFence (fm pred succ : BitVec 4) (s : State) : Host.Outcome State Fault Refusal := issue (.fence fm pred succ) s fun s => .done s
def execFenceI (s : State) : Host.Outcome State Fault Refusal := issue .fenceI s fun s => .done s
def execEcall (s : State) : Host.Outcome State Fault Refusal := issue .ecall s fun _ => .trap 0x09 0
def execEbreak (s : State) : Host.Outcome State Fault Refusal := issue .ebreak s fun _ => .trap 0x08 0

/-- A word that no encoding assigns, at the pc of the slot that issues: 0x01 with HTVAL the word (R125, R126). -/
def execIllegalInstruction (w : IWord) (s : State) : Host.Outcome State Fault Refusal :=
  if s.canIssue s.cur then .next (takeTrap s 0x01 (w.zeroExtend 64) none) else .next s

/-- STALL n: the task issues nothing until its count has expired (R180). -/
def execStall (n : BitVec 12) (s : State) : Host.Outcome State Fault Refusal :=
  issue (.stall n) s fun s => .done (s.modTask s.cur fun t => { t with stall := some n })

/-- The count of a slot's STALL has expired (R28, R180). -/
def execStallExpiry (slot : Slot) (s : State) : Host.Outcome State Fault Refusal :=
  event slot.wf s fun s => s.modTask slot fun t => { t with stall := none }

end Sys2Proof.Machine
end

