-- ==== Sys2Proof/Machine/Csr.lean ====
section
/-!
DEFINITION. Control and status registers (R137-R139, R176-R179, R294) and the dwords of a bank as the handler window and the
context image show them (R295).
-/

namespace Sys2Proof.Machine

open Sys2Proof

/-! ### Fields with a write rule (R99, R139, R178, R277) -/

def Bank.setRmode (b : Bank) (v : Word) : Bank := if v.toNat % 8 < 6 then { b with rmode := v.setWidth 3 } else b
/-- A write of 3 leaves MODE unchanged; a write below the floor stores the floor (R139). -/
def Bank.setStallchk (b : Bank) (floor : Nat) (v : Word) : Bank :=
  if v.toNat % 4 == 3 then b else { b with stallchk := BitVec.ofNat 2 (max floor (v.toNat % 4)) }
def Bank.repstate (b : Bank) : Word := BitVec.ofNat 64 (b.repRemain.toNat + b.repIter.toNat * 128)
def Bank.setRepstate (b : Bank) (v : Word) : Bank := { b with repRemain := v.setWidth 7, repIter := v.extractLsb' 7 6 }
/-- A write of 3 leaves MODE unchanged (R277). -/
def Bank.setQmode (b : Bank) (v : Word) : Bank := if v.toNat % 4 == 3 then b else { b with qmode := v.setWidth 2 }

/-! ### A bank as dwords (R295) -/

/-- The dword at an 8-byte-aligned offset of a bank. -/
def Bank.dword (b : Bank) (key : Word) (o : Nat) : Word :=
  if o < 0x100 then b.rx (BitVec.ofNat 5 (o / 8))
  else if o < 0x2100 then (b.rv (BitVec.ofNat 5 ((o - 0x100) / 256))).extractLsb' (8 * ((o - 0x100) % 256)) 64
  else if o < 0x2200 then (b.rp (BitVec.ofNat 3 ((o - 0x2100) / 32))).extractLsb' (8 * ((o - 0x2100) % 32)) 64
  else if 0x2240 ≤ o ∧ o < 0x2280 then (b.fmt[(o - 0x2240) / 8 % 8]).zeroExtend 64
  else match o with
    | 0x2200 => b.pc
    | 0x2208 => b.tflags.zeroExtend 64
    | 0x2210 => b.rmode.zeroExtend 64
    | 0x2218 => b.trapen.zeroExtend 64
    | 0x2220 => b.stallchk.zeroExtend 64
    | 0x2228 => b.repstate
    | 0x2230 => b.seq
    | 0x2280 => b.qidx
    | 0x2288 => b.qdim.zeroExtend 64
    | 0x2290 => b.qseed.zeroExtend 64
    | 0x2298 => b.qmode.zeroExtend 64
    | 0x22A0 => b.qstep
    | 0x22A8 => b.qdraw
    | 0x22B0 => b.qdrawprev
    | 0x22B8 => b.pipctr
    | 0x22C0 => key
    | 0x22C8 => b.pipdraw
    | 0x22D0 => b.pipdrawprev
    | _ => 0

/-- Replace bits [64 j + 63 : 64 j] of a vector register. -/
def vecSet64 (v : Vec) (j : Nat) (d : Word) : Vec :=
  (v &&& ~~~((BitVec.allOnes 64).zeroExtend 2048 <<< (64 * j))) ||| (d.zeroExtend 2048 <<< (64 * j))
def predSet64 (v : Pred) (j : Nat) (d : Word) : Pred :=
  (v &&& ~~~((BitVec.allOnes 64).zeroExtend 256 <<< (64 * j))) ||| (d.zeroExtend 256 <<< (64 * j))

/-- Write the dword at an offset of a bank; `raw` (the loading of an image) also writes what the window shows read-only. -/
def Bank.setDword (b : Bank) (floor : Nat) (raw : Bool) (o : Nat) (d : Word) : Bank :=
  if o < 0x100 then b.wx (BitVec.ofNat 5 (o / 8)) d
  else if o < 0x2100 then
    let r := BitVec.ofNat 5 ((o - 0x100) / 256)
    b.wv r (vecSet64 (b.rv r) ((o - 0x100) % 256 / 8) d)
  else if o < 0x2200 then
    let r := BitVec.ofNat 3 ((o - 0x2100) / 32)
    b.wp r (predSet64 (b.rp r) ((o - 0x2100) % 32 / 8) d)
  else if 0x2240 ≤ o ∧ o < 0x2280 then { b with fmt := b.fmt.set ((o - 0x2240) / 8 % 8) (d.setWidth 32) }
  else match o with
    | 0x2200 => { b with pc := d }
    | 0x2208 => { b with tflags := d.setWidth 5 }
    | 0x2210 => b.setRmode d
    | 0x2218 => { b with trapen := d.setWidth 5 }
    | 0x2220 => b.setStallchk floor d
    | 0x2228 => b.setRepstate d
    | 0x2230 => if raw then { b with seq := d } else b
    | 0x2280 => { b with qidx := d }
    | 0x2288 => { b with qdim := d.setWidth 8 }
    | 0x2290 => { b with qseed := d.setWidth 32 }
    | 0x2298 => b.setQmode d
    | 0x22A0 => { b with qstep := d }
    | 0x22A8 => { b with qdraw := d }
    | 0x22B0 => if raw then { b with qdrawprev := d } else b
    | 0x22B8 => { b with pipctr := d }
    | 0x22C8 => { b with pipdraw := d }
    | 0x22D0 => if raw then { b with pipdrawprev := d } else b
    | _ => b

/-! ### Reading a CSR (R137, R179) -/

/-- The task's own latest MBHEAD write of the superstep (R179). -/
def ownMbHead (ps : List Pend) (t i : Nat) : Option Word :=
  ps.foldl (fun acc p => match p.eff with
    | .mbHead v => if p.tile == t && p.task == i then some v else acc
    | _ => acc) none

/-- GRPS (R15). -/
def grpsWord (ids : List Nat) : Word :=
  let low := (List.range 4).foldl (fun a j => a + ids.getD j 0xFF * 256 ^ j) 0
  BitVec.ofNat 64 (low + ids.length * 2 ^ 32)

/-- The groups of a logical tile, ascending (R15). -/
def Launch.groupsOf (x : Launch) (t : Nat) : List Nat := (List.range x.groups.length).filter fun g => (x.groups.getD g []).contains t

/-- The frozen task and its trap that the handler slot serves. -/
def State.served (s : State) : Option (Slot × TrapRec) :=
  match s.cur with
  | .handler p phys =>
    match (s.handler p phys).serving with
    | some (k, _) => match (s.task k).status with
      | .frozen r => some (k, r)
      | _ => none
    | none => none
  | .thread _ _ _ => none

/-- The physical tile id of a thread slot. -/
def State.slotPhys (s : State) (k : Slot) : Nat :=
  match k with
  | .thread l t _ => (s.tile l t).phys
  | .handler p phys => p % 256 * 2048 + phys

/-- HSTATUS of the trap being served (R294). -/
def hstatus (r : TrapRec) (queued : Nat) : Word :=
  BitVec.ofNat 64 (b01 r.inrep + b01 r.cmp.isSome * 2 + (match r.cmp with | some n => n.toNat | none => 0) * 4 + b01 r.alt * 16 +
    b01 r.det * 32 + b01 r.rerun * 64 + b01 r.serial * 128 + queued * 256)

/-- CYCLE for a task of a launch: 0 when the launch is DET, else a free value (R137). -/
def State.cycleOf (s : State) (l : Nat) : Word := if (s.launch l).desc.det then 0 else Config.cycle s.free

/-- The value of a CSR for the issuing thread slot (R137). -/
def State.csrThread (s : State) (n : Nat) : Word :=
  let b := s.bank
  let x := s.curLaunch
  let y := x.onPkg s.curP
  let t := s.curTile
  if 0x810 ≤ n ∧ n ≤ 0x817 then (b.fmt[(n - 0x810) % 8]).zeroExtend 64
  else match n with
    | 0xC80 => BitVec.ofNat 64 s.curT
    | 0xC81 => BitVec.ofNat 64 s.curI
    | 0xC82 => BitVec.ofNat 64 x.desc.ntile
    | 0xC83 => BitVec.ofNat 64 y.sstep
    | 0xC84 => x.gflags.zeroExtend 64
    | 0xC85 => BitVec.ofNat 64 vlenb
    | 0xC86 => BitVec.ofNat 64 s.curP
    | 0xC87 => BitVec.ofNat 64 (if x.desc.mbSize == 0 then 0 else (t.mbTail + x.desc.mbSize - t.mbHead) % x.desc.mbSize)
    | 0xC88 => BitVec.ofNat 64 x.conflSeen
    | 0xC89 => BitVec.ofNat 64 y.reexec
    | 0xC8A => grpsWord (x.groupsOf s.curT)
    | 0xC8B => s.cycleOf s.curL
    | 0xC8C => BitVec.ofNat 64 t.mbLost
    | 0xC8D => t.cflags.zeroExtend 64
    | 0x800 => b.tflags.zeroExtend 64
    | 0x801 => b.rmode.zeroExtend 64
    | 0x802 => b.trapen.zeroExtend 64
    | 0x803 => b.stallchk.zeroExtend 64
    | 0x804 => b.repstate
    | 0x820 => b.qidx
    | 0x821 => b.qdim.zeroExtend 64
    | 0x822 => b.qseed.zeroExtend 64
    | 0x823 => b.qmode.zeroExtend 64
    | 0x824 => b.qstep
    | 0x825 => b.qdraw
    | 0x826 => b.qdrawprev
    | 0x828 => b.pipctr
    | 0x829 => s.pipkey
    | 0x82A => b.pipdraw
    | 0x830 => BitVec.ofNat 64 x.desc.mbBase
    | 0x831 => BitVec.ofNat 64 x.desc.mbSize
    | 0x832 => match ownMbHead x.pends s.curT s.curI with
      | some v => v
      | none => BitVec.ofNat 64 t.mbHead
    | _ => 0

/-- The value of a CSR for a handler slot (R134, R294). -/
def State.csrHandlerRead (s : State) (n : Nat) : Word :=
  let own := match s.cur with | .handler p phys => (s.handler p phys) | .thread _ _ _ => .zero
  match s.served with
  | none => 0
  | some (k, r) =>
    let l := match k with | .thread l _ _ => l | .handler _ _ => 0
    let i := match k with | .thread _ _ i => i | .handler _ _ => 0
    let phys := s.slotPhys k
    match n with
    | 0x7C0 => r.cause.zeroExtend 64
    | 0x7C1 => BitVec.ofNat 64 (phys % 2 ^ 19)
    | 0x7C2 => BitVec.ofNat 64 i
    | 0x7C3 => (s.task k).bank.pc
    | 0x7C4 => r.tval
    | 0x7C5 => hstatus r own.queue.length
    | 0x7C6 => (s.cmp s.curP phys).hbrk
    | 0x7C7 => match s.cur with
      | .handler p me => (Tab.get (s.pkg p).pairs 0 (me % 2048)) &&& pairMask
      | .thread _ _ _ => 0
    | _ => s.cycleOf l

def State.csrRead (s : State) (n : Nat) : Word := if s.inHandler then s.csrHandlerRead n else s.csrThread n

/-! ### Writing a CSR (R178) -/

/-- The reserved bits of HBRK: [15:14] of each comparator's controls (R300). -/
def hbrkMask : Word := 0x3FFF3FFF3FFF3FFF

/-- A written MBHEAD value is reduced mod MBSIZE and its low 4 bits cleared; 0 in a launch without mailbox (R82). -/
def mbHeadValue (size : Nat) (v : Word) : Word := if size == 0 then 0 else BitVec.ofNat 64 (v.toNat % size / 16 * 16)

def State.csrWrite (s : State) (n : Nat) (v : Word) : State :=
  if 0x810 ≤ n ∧ n ≤ 0x817 then s.modBank fun b => { b with fmt := b.fmt.set ((n - 0x810) % 8) (v.setWidth 32) }
  else match n with
    | 0x800 => s.modBank fun b => { b with tflags := v.setWidth 5 }
    | 0x801 => s.modBank fun b => b.setRmode v
    | 0x802 => s.modBank fun b => { b with trapen := v.setWidth 5 }
    | 0x803 => s.modBank fun b => b.setStallchk s.curLaunch.desc.floor v
    | 0x804 => s.modBank fun b => b.setRepstate v
    | 0x820 => s.modBank fun b => { b with qidx := v }
    | 0x821 => s.modBank fun b => { b with qdim := v.setWidth 8 }
    | 0x822 => s.modBank fun b => { b with qseed := v.setWidth 32 }
    | 0x823 => s.modBank fun b => b.setQmode v
    | 0x825 => s.modBank fun b => { b with qdraw := v }
    | 0x828 => s.modBank fun b => { b with pipctr := v }
    | 0x82A => s.modBank fun b => { b with pipdraw := v }
    | 0x832 => (s.queue (.mbHead (mbHeadValue s.curLaunch.desc.mbSize v))).advSeq
    | 0x7C3 => match s.served with
      | some (k, _) => s.modTask k fun t => { t with bank := { t.bank with pc := v } }
      | none => s
    | 0x7C6 => match s.served with
      | some (k, _) => s.setCmp s.curP (s.slotPhys k) { s.cmp s.curP (s.slotPhys k) with hbrk := v &&& hbrkMask }
      | none => s
    | _ => s

/-- A CSR access waits for the earlier instructions of the task that update the CSR: TFLAGS for pending SFU and matrix
requests (R108, R138); a write of TRAPEN waits for the same ones (R178). -/
def State.csrBusy (s : State) (n : Nat) (writes : Bool) : Bool :=
  (n == 0x800 || (n == 0x802 && writes)) && !s.inHandler && (s.curTile.sfu.any (fun q => q.task == s.curI) || (s.task s.cur).mreq != [])

/-- The steps of a CSR instruction (R177). `new` makes the value from the old one and the source. -/
def csrOp (i : Instr) (rd : Reg) (csr : BitVec 12) (writes : Bool) (src : State → Word) (new : Word → Word → Word) (s : State) :
    Host.Outcome State Fault Refusal :=
  issue i s fun s =>
    if s.csrBusy csr.toNat writes then .wait
    else
      let old := s.csrRead csr.toNat
      let s1 := if writes then s.csrWrite csr.toNat (new old (src s)) else s
      let s2 := s1.wx rd old
      .done (if csr.toNat == 0xC8B then s2.tick else s2)

def execCsrrw (rd : Reg) (csr : BitVec 12) (rs1 : Reg) (s : State) := csrOp (.csrrw rd csr rs1) rd csr true (·.rx rs1) (fun _ v => v) s
def execCsrrs (rd : Reg) (csr : BitVec 12) (rs1 : Reg) (s : State) := csrOp (.csrrs rd csr rs1) rd csr (rs1 != 0) (·.rx rs1) (· ||| ·) s
def execCsrrc (rd : Reg) (csr : BitVec 12) (rs1 : Reg) (s : State) :=
  csrOp (.csrrc rd csr rs1) rd csr (rs1 != 0) (·.rx rs1) (fun o v => o &&& ~~~v) s
def execCsrrwi (rd : Reg) (csr : BitVec 12) (uimm : BitVec 5) (s : State) :=
  csrOp (.csrrwi rd csr uimm) rd csr true (fun _ => uimm.zeroExtend 64) (fun _ v => v) s
def execCsrrsi (rd : Reg) (csr : BitVec 12) (uimm : BitVec 5) (s : State) :=
  csrOp (.csrrsi rd csr uimm) rd csr (uimm != 0) (fun _ => uimm.zeroExtend 64) (· ||| ·) s
def execCsrrci (rd : Reg) (csr : BitVec 12) (uimm : BitVec 5) (s : State) :=
  csrOp (.csrrci rd csr uimm) rd csr (uimm != 0) (fun _ => uimm.zeroExtend 64) (fun o v => o &&& ~~~v) s

end Sys2Proof.Machine
end

