-- ==== Sys2Proof/Machine/LoadStore.lean ====
section
/-!
DEFINITION. Scalar loads and stores (R167-R172), the handler window (R255, R295, R296) and the arrival of interlocked results
(R146, R168).
-/

namespace Sys2Proof.Machine

open Sys2Proof

/-! ### Bytes of a vector -/

/-- Byte lane j of a register. -/
def vbyte (v : Vec) (j : Nat) : Byte := v.extractLsb' (8 * j) 8
/-- A register from its bytes, lane 0 first. -/
def vecOf (bs : List Byte) : Vec := BitVec.ofNat 2048 (leNat bs)
def vbytes (v : Vec) : List Byte := (List.range 256).map (vbyte v)
/-- Replace byte lane j. -/
def vsetb (v : Vec) (j : Nat) (b : Byte) : Vec :=
  let m : Vec := BitVec.ofNat 2048 (255 * 2 ^ (8 * j))
  let w : Vec := BitVec.ofNat 2048 (b.toNat * 2 ^ (8 * j))
  (v &&& ~~~m) ||| w
/-- Replace the bytes of some lanes. -/
def vput (v : Vec) (l : List (Nat × Byte)) : Vec := l.foldl (fun v e => vsetb v e.1 e.2) v

/-- The register value of a load's bytes (R167). -/
def LoadKind.value (k : LoadKind) (v : Vec) : Vec :=
  match k with
  | .sext n => (sextN (8 * n) v.toNat).zeroExtend 2048
  | .zext n => BitVec.ofNat 2048 (v.toNat % 2 ^ (8 * n))
  | .vec => v
  | .pred => v

/-- Start an accepted load: bytes of own TM are read now; others make the result interlocked, and are read when they
are served (R146, R168, R216); a line that no path leads to is a lost packet (R336, R338). `src` gives lane and address of each byte, `base` the register's other bytes. -/
def State.startLoad (s : State) (dst : RegId) (kind : LoadKind) (base : Vec) (src : List (Nat × Word)) : State :=
  let own := src.filter fun e => decide (e.2.toNat < s.curLaunch.desc.tmSize)
  let far := src.filter fun e => !decide (e.2.toNat < s.curLaunch.desc.tmSize)
  let v := vput base (own.map fun e => (e.1, s.ownByte s.curL s.curT s.curI e.2.toNat))
  if far == [] then s.modBank fun b => b.setReg dst (kind.value v)
  else (s.later dst (.bytes kind v far)).voteLost s.curL s.curP (far.map fun e => e.2.toNat)

/-! ### The handler window -/

/-- A window address as bank offset of the served task, or as offset in its tile's area (R295, R296). -/
inductive WinPlace where
  | bank (off : Nat)
  | tileArea (off : Nat)
deriving DecidableEq, Repr

def winBase : Nat := 0xFFFFF00000000000

/-- Where an aligned window access of the serving handler slot goes; none raises 0x03 (R172, R296). -/
def State.winPlace (s : State) (ea : Nat) : Option WinPlace :=
  match s.served with
  | some (.thread l t i, _) =>
    if ea < winBase then none
    else
      let o := ea - winBase
      if o / 2 ^ 20 != (s.tile l t).phys then none
      else if bits o 16 4 == i && decide (o % 65536 < 0x2400) then some (.bank (o % 65536))
      else if bits o 16 4 == 8 && decide (o % 65536 < 0x40) then some (.tileArea (o % 65536))
      else none
  | _ => none

/-- The dword of the window that holds an address. -/
def State.winDword (s : State) (w : WinPlace) : Word :=
  match s.served, w with
  | some (.thread l t i, _), .bank off =>
    (s.task (.thread l t i)).bank.dword (pipKey (s.launch l).desc.seed t i) (off / 8 * 8)
  | some (.thread l t _, _), .tileArea off =>
    let c := s.cmp s.curP (s.tile l t).phys
    if off / 8 % 2 == 0 then c.pc[off / 16 % 4] else c.sval[off / 16 % 4]
  | _, _ => 0

def State.winSetDword (s : State) (w : WinPlace) (d : Word) : State :=
  match s.served, w with
  | some (.thread l t i, _), .bank off =>
    s.modTask (.thread l t i) fun k => { k with bank := k.bank.setDword (s.launch l).desc.floor false (off / 8 * 8) d }
  | some (.thread l t _, _), .tileArea off =>
    let p := s.curP
    let ph := (s.tile l t).phys
    let c := s.cmp p ph
    if off / 8 % 2 == 0 then s.setCmp p ph { c with pc := c.pc.set (off / 16 % 4) d } else s.setCmp p ph { c with sval := c.sval.set (off / 16 % 4) d }
  | _, _ => s

/-- A window access to a v register that a pending SFU request of the task will write waits (R296). -/
def State.winBusy (s : State) (w : WinPlace) : Bool :=
  match s.served, w with
  | some (.thread l t i, _), .bank off =>
    decide (0x100 ≤ off) && decide (off < 0x2100) && (s.tile l t).sfu.any fun q => q.task == i && q.vd.toNat == (off - 0x100) / 256
  | _, _ => false

/-- Replace the `n` bytes at byte `o` of a dword. -/
def dwordPut (d : Word) (o n : Nat) (v : Nat) : Word :=
  let old := d.toNat
  BitVec.ofNat 64 (old % 256 ^ o + v % 256 ^ n * 256 ^ o + old / 256 ^ (o + n) * 256 ^ (o + n))

/-! ### Loads -/

/-- The checks of a handler slot's access outside the window: global pages of the trapped task's domain (R172). -/
def State.handlerCheck (s : State) (store : Bool) (ea : Nat) : Option (BitVec 8) :=
  match s.served with
  | some (.thread l _ _, _) =>
    let p := s.curP
    if !isGlob ea then some 0x03
    else match s.xlate l p ea with
      | none => some 0x05
      | some _ => if s.permitted l p (if store then .store else .load) ea then none else some 0x03
  | _ => some 0x03

/-- A load of `n` bytes (R167, R168, R172). -/
def load (i : Instr) (rd rs1 : Reg) (imm : BitVec 12) (n : Nat) (kind : LoadKind) (s : State) : Host.Outcome State Fault Refusal :=
  issue i s fun s =>
    let ea := s.rx rs1 + imm12 imm
    let dst : RegId := { file := .x, num := rd.toNat }
    if ea.toNat % n != 0 then .trap 0x02 ea
    else if s.inHandler then
      if winBase ≤ ea.toNat then
        match s.winPlace ea.toNat with
        | none => .trap 0x03 ea
        | some w =>
          if s.winBusy w then .wait
          else .done (s.wx rd ((kind.value (((s.winDword w) >>> (8 * (ea.toNat % 8))).zeroExtend 2048)).setWidth 64))
      else match s.handlerCheck false ea.toNat with
        | some c => .trap c ea
        | none => match s.served with
          | some (.thread l _ _, _) =>
            .done ((s.wx rd ((kind.value (vecOf ((List.range n).map fun j => s.globByte l s.curP (ea.toNat + j)))).setWidth 64)).voteLost l s.curP [ea.toNat])
          | _ => .done s
    else match s.checkBytes s.curL s.curT s.curI .load (addrs ea.toNat n) with
      | some (c, _) => .trap c ea
      | none =>
        if (s.task s.cur).rangeBusy false (s.ownOnly s.curL (addrs ea.toNat n)) then .wait
        else .done (s.startLoad dst kind 0 ((List.range n).map fun j => (j, ea + BitVec.ofNat 64 j)))

def execLb (rd rs1 : Reg) (imm : BitVec 12) (s : State) := load (.lb rd rs1 imm) rd rs1 imm 1 (.sext 1) s
def execLh (rd rs1 : Reg) (imm : BitVec 12) (s : State) := load (.lh rd rs1 imm) rd rs1 imm 2 (.sext 2) s
def execLw (rd rs1 : Reg) (imm : BitVec 12) (s : State) := load (.lw rd rs1 imm) rd rs1 imm 4 (.sext 4) s
def execLd (rd rs1 : Reg) (imm : BitVec 12) (s : State) := load (.ld rd rs1 imm) rd rs1 imm 8 (.sext 8) s
def execLbu (rd rs1 : Reg) (imm : BitVec 12) (s : State) := load (.lbu rd rs1 imm) rd rs1 imm 1 (.zext 1) s
def execLhu (rd rs1 : Reg) (imm : BitVec 12) (s : State) := load (.lhu rd rs1 imm) rd rs1 imm 2 (.zext 2) s
def execLwu (rd rs1 : Reg) (imm : BitVec 12) (s : State) := load (.lwu rd rs1 imm) rd rs1 imm 4 (.zext 4) s

/-! ### Stores -/

/-- A handler's global store is a delta of the trapped task's launch with that task's key, and advances its sequence (R172). -/
def State.handlerStore (s : State) (va : Nat) (bs : List Byte) : State :=
  match s.served with
  | some (k, _) =>
    let h := s.cur
    { (({ s with cur := k }.storeRun va bs).advSeq) with cur := h }
  | none => s

/-- A store of `n` bytes (R167-R169, R172). -/
def store (i : Instr) (rs2 rs1 : Reg) (imm : BitVec 12) (n : Nat) (s : State) : Host.Outcome State Fault Refusal :=
  issue i s fun s =>
    let ea := s.rx rs1 + imm12 imm
    let bs := natLe n (s.rx rs2).toNat
    if ea.toNat % n != 0 then .trap 0x02 ea
    else if s.inHandler then
      if winBase ≤ ea.toNat then
        match s.winPlace ea.toNat with
        | none => .trap 0x03 ea
        | some w => if s.winBusy w then .wait else .done (s.winSetDword w (dwordPut (s.winDword w) (ea.toNat % 8) n (s.rx rs2).toNat))
      else match s.handlerCheck true ea.toNat with
        | some c => .trap c ea
        | none => .done (s.handlerStore ea.toNat bs)
    else match s.checkBytes s.curL s.curT s.curI .store (addrs ea.toNat n) with
      | some (c, _) => .trap c ea
      | none =>
        if (s.task s.cur).rangeBusy true (s.ownOnly s.curL (addrs ea.toNat n)) then .wait
        else .done (s.storeRun ea.toNat bs).advSeq

def execSb (rs2 rs1 : Reg) (imm : BitVec 12) (s : State) := store (.sb rs2 rs1 imm) rs2 rs1 imm 1 s
def execSh (rs2 rs1 : Reg) (imm : BitVec 12) (s : State) := store (.sh rs2 rs1 imm) rs2 rs1 imm 2 s
def execSw (rs2 rs1 : Reg) (imm : BitVec 12) (s : State) := store (.sw rs2 rs1 imm) rs2 rs1 imm 4 s
def execSd (rs2 rs1 : Reg) (imm : BitVec 12) (s : State) := store (.sd rs2 rs1 imm) rs2 rs1 imm 8 s

/-! ### Interlocked results arrive (R146, R168) -/

/-- The value a pending result brings: the bytes as served now (R74), or the value it carries. -/
def State.arrived (s : State) (k : Slot) (q : PendRes) : Vec :=
  match q.src with
  | .value v => v
  | .divide v => v
  | .gfaa _ => 0
  | .bytes kind base src =>
    match k with
    | .thread l t i => kind.value (vput base (src.map fun e => (e.1, s.loadByte l t i e.2.toNat)))
    | .handler _ _ => base

/-- The `k`-th result on its way to a slot is served and written; a quotient waits for the divider's own event, a remote GFAA
for the answer to its packet. -/
def execAccessResult (slot : Slot) (k : Nat) (s : State) : Host.Outcome State Fault Refusal :=
  event slot.wf s fun s =>
    match (s.task slot).pend[k]? with
    | some q => match q.src with
      | .divide _ => s
      | .gfaa _ => s
      | _ => (s.modTask slot fun t => { t with pend := t.pend.eraseIdx k, bank := t.bank.setReg q.dst (s.arrived slot q) }).tick
    | none => s

end Sys2Proof.Machine
end

