-- ==== Sys2Proof/Machine/Sync.lean ====
section
/-!
DEFINITION. Ending and shaping supersteps: SYNC, EXIT, TRIG, LAUNCH, ABORTREQ (R227-R231), and the handler's HRET (R232,
R297).
-/

namespace Sys2Proof.Machine

open Sys2Proof

/-- Descriptor fault of an operand: HTVAL is the offending register value (R224). -/
def operandFault (v : Word) : Act := .trap 0x0C v

/-- The task stands at the barrier; its package may leave COMPUTE (R23, R24). -/
def State.atBarrier (s : State) (st : TaskStatus) : State :=
  (s.modTask s.cur fun t => { t with status := st }).checkClosing s.curL s.curP

/-- SYNC ends the task's part of the superstep; rd is written at commit (R227). -/
def execSync (rd rs1 : Reg) (s : State) : Host.Outcome State Fault Refusal :=
  issue (.sync rd rs1) s fun s =>
    let f := s.rx rs1
    if 8 ≤ f.toNat then operandFault f else .done (s.atBarrier (.atSync rd (f.setWidth 3)))

/-- EXIT ends the task for good; it retires at the commit (R228). -/
def execExit (s : State) : Host.Outcome State Fault Refusal :=
  issue .exit s fun s => .done (s.atBarrier .atExit)

/-- TRIG queues a trigger, recorded at commit (R230, R35). -/
def execTrig (s : State) : Host.Outcome State Fault Refusal :=
  issue .trig s fun s => .done (s.queue .trig).advSeq

/-- The lowest of some addresses that is outside the global range or has no translation. -/
def State.firstUntranslated (s : State) (l p : Nat) (as : List Nat) : Option Nat :=
  as.find? fun a => !isGlob a || (s.xlate l p a).isNone

/-- An entry of a launch queue is free: filled and reserved entries count (R30, R31). -/
def Queue.hasRoom (q : Queue) : Bool := decide (q.entries.length + q.reserved < 64)

/-- LAUNCH reserves an entry in the queue of its descriptor's priority and queues the enqueueing (R231, R31). -/
def execLaunch (rs1 : Reg) (s : State) : Host.Outcome State Fault Refusal :=
  issue (.launch rs1) s fun s =>
    let va := s.rx rs1
    let l := s.curL
    let p := s.curP
    let d := s.curLaunch.dom
    if va.toNat % 64 != 0 then .trap 0x02 va
    else if !isGlob va.toNat then .trap 0x03 va
    else match s.firstUntranslated l p (addrs va.toNat 256) with
      | some a => .trap 0x05 (BitVec.ofNat 64 a)
      | none =>
        let q := bits (s.globByte l p (va.toNat + 5)).toNat 0 3
        if !(((s.pkg p).dom d).queue q).hasRoom then .wait
        else .done ((s.modQueue p d q fun x => { x with reserved := x.reserved + 1 }).queue (.launch va q)).advSeq

/-- The lower-keyed of two requests (R229). -/
def lowerReq (a : Nat × Nat × Word × BitVec 32) : Option (Nat × Nat × Word × BitVec 32) → Nat × Nat × Word × BitVec 32
  | none => a
  | some b =>
    if a.1 < b.1 || (a.1 == b.1 && (a.2.1 < b.2.1 || (a.2.1 == b.2.1 && a.2.2.1.toNat < b.2.2.1.toNat))) then a else b

/-- ABORTREQ raises 0x46; the ladder carries x[rs1][31:0] of the lowest-keyed requester (R229). -/
def execAbortreq (rs1 : Reg) (s : State) : Host.Outcome State Fault Refusal :=
  issue (.abortreq rs1) s fun s =>
    let r := (s.curT, s.curI, s.bank.seq, (s.rx rs1).setWidth 32)
    .done ((s.modLpkg s.curL s.curP fun x => { x with req := some (lowerReq r x.req) }).raiseB s.curL s.curP 0x46)

/-- What HRET does to the trapped task (R232, R297). -/
def State.hretAct (s : State) (k : Slot) (action : Nat) : State :=
  match k with
  | .thread l t i =>
    match action with
    | 0 => resumeTask s k false
    | 1 => resumeTask s k true
    | 2 => killTask s l t i
    | 3 => s.raiseB l (s.tilePkg l t) 0x49
    | _ => s.modTask k Task.escalate
  | .handler _ _ => s

/-- HRET ends the handler's run and acts on the trapped task; another action value is a descriptor fault, which
escalates (R232). The slot then takes its next trap (R293). -/
def execHret (rs1 : Reg) (s : State) : Host.Outcome State Fault Refusal :=
  issue (.hret rs1) s fun s =>
    let a := s.rx rs1
    if 5 ≤ a.toNat then operandFault a
    else match s.cur with
      | .handler p phys =>
        let s1 := match s.served with
          | some (k, _) => s.hretAct k a.toNat
          | none => s
        let s2 := s1.handlerEnd p phys
        .jump s2 s2.bank.pc
      | .thread _ _ _ => .done s

end Sys2Proof.Machine
end

