-- ==== Sys2Proof/Machine/Copy.lean ====
section
/-!
DEFINITION. Copies, fetch lists and ownership transfer (R42, R43, R51, R58-R61, R233-R242).
-/

namespace Sys2Proof.Machine

open Sys2Proof

/-! ### Copy descriptors (R233, R61) -/

/-- The fields of a descriptor meet R233 and R61; `get` says that bytes move from global memory to own TM. -/
def copyOk (bs : List Byte) (get : Bool) : Bool :=
  let c := copyDescOf bs
  let code := c.layout.toNat % 4
  let n := if code == 1 then 32 else 64
  decide (1 ≤ c.bytes) && decide (c.bytes ≤ 2097152) && decide (1 ≤ c.rows) && decide (c.rows ≤ 65536) &&
    decide (c.rows * c.bytes ≤ 2097152) && decide (c.layout.toNat < 4) && decide (c.flags.toNat < 2) &&
    bs.getD 30 0 == 0 && bs.getD 31 0 == 0 && code != 3 &&
    (code == 0 || (get && c.bytes == 64 && c.rows % n == 0 && c.remote.toNat % 64 == 0 && c.rpitch % 64 == 0 && c.flags.toNat == 0))

/-- The remote address of row i (R233). -/
def CopyDesc.rowAddr (c : CopyDesc) (i : Nat) : Nat := (c.remote.toNat + i * c.rpitch) % 2 ^ 64
/-- The TM range of row i (R233). -/
def CopyDesc.rowRange (c : CopyDesc) (i : Nat) : Range := { lo := c.tm + i * c.tpitch, hi := c.tm + i * c.tpitch + c.bytes - 1 }
def CopyDesc.ranges (c : CopyDesc) : List Range := (List.range c.rows).map c.rowRange

/-- The least of some numbers. -/
def leastOf : List Nat → Option Nat
  | [] => none
  | a :: l => some (l.foldl min a)

/-- Addresses of the remote side at which a check can first fail: the start of each row and, inside a row, each page start
and the end of the counter region; every other byte has the answer of the one before it. -/
def CopyDesc.probes (c : CopyDesc) (x : Launch) : List Nat :=
  let ctr := x.desc.ctrVa.toNat + 8 * x.desc.ctrCount
  (List.range c.rows).flatMap fun i =>
    let a := c.rowAddr i
    let pages := (List.range ((a % 65536 + c.bytes - 1) / 65536)).map fun j => (a / 65536 + j + 1) * 65536 % 2 ^ 64
    a :: pages ++ (if a < ctr ∧ ctr < a + c.bytes then [ctr] else [])

/-- Step 4 of R234: the cause and the lowest failing byte address. -/
def State.remoteCheck (s : State) (kind : CopyKind) (c : CopyDesc) : Option (BitVec 8 × Nat) :=
  let x := s.curLaunch
  let l := s.curL
  let p := s.curP
  let reg := fun a => regionOf x.desc.tmSize x.desc.ntile a
  let ps := c.probes x
  let inside := fun a => match kind, reg a with
    | .get, .glob => true
    | .get, .devInfo _ => true
    | .get, .l2p _ => true
    | .put, .glob => true
    | .peer, .peer _ _ => true
    | _, _ => false
  match leastOf (ps.filter fun a => !inside a) with
  | some a => some (0x03, a)
  | none =>
    match leastOf (ps.filter fun a => match reg a with | .peer t _ => (s.tile l t).retired | _ => false) with
    | some a => some (0x06, a)
    | none =>
      match leastOf (ps.filter fun a => match reg a with | .glob => (s.xlate l p a).isNone | _ => false) with
      | some a => some (0x05, a)
      | none =>
        (leastOf (ps.filter fun a => !s.permitted l p (match kind with | .put => .copyDst | _ => .copySrc) a)).map fun a => (0x03, a)

/-- A block may take part in a copy of task `i` (R51, R236). -/
def copyOwner (kind : CopyKind) (i : Nat) : Owner → Bool
  | .own j => i == j
  | .engine j => i == j
  | .fetch _ => false
  | .ro => kind == .put

/-- The lowest byte of some ranges of own TM that lies in a block that fails a test. -/
def Tile.lowestBad (x : Tile) (ok : Nat → Owner → Bool) (rs : List Range) : Option Nat :=
  leastOf (rs.flatMap fun r =>
    ((List.range (r.hi / 2048 - r.lo / 2048 + 1)).map fun j => r.lo / 2048 + j).filterMap fun b =>
      if ok b (x.owner (b * 2048)) then none else some (max r.lo (b * 2048)))

/-- The lowest byte of some ranges outside own TM. -/
def lowestOutside (tmSize : Nat) (rs : List Range) : Option Nat :=
  leastOf (rs.filterMap fun r => if tmSize ≤ r.hi then some (max r.lo tmSize) else none)

/-- Step 5 of R234: the TM side. -/
def State.tmCheck (s : State) (ok : Nat → Owner → Bool) (rs : List Range) : Option (BitVec 8 × Nat) :=
  match lowestOutside s.curLaunch.desc.tmSize rs with
  | some a => some (0x03, a)
  | none => (s.curTile.lowestBad ok rs).map fun a => (0x04, a)

/-- Two ranges share a byte. -/
def Range.meets (r q : Range) : Bool := decide (r.lo ≤ q.hi) && decide (q.lo ≤ r.hi)

/-- An access to ranges of own TM that must wait for a range held by the task's matrix requests (R269). -/
def Task.rangesBusy (t : Task) (writes : Bool) (rs : List Range) : Bool :=
  t.mreq.any fun m => (writes && m.fetch.any fun r => rs.any r.meets) || m.store.any fun r => rs.any r.meets

/-- Writes of ranges of own TM that must wait for a fetch range only: those of MST, which the task's earlier requests
precede in any case (R256, R269). -/
def Task.fetchBusy (t : Task) (rs : List Range) : Bool := t.mreq.any fun m => m.fetch.any fun r => rs.any r.meets

/-- The copy's TM side touches a block (R51). -/
def CopyDesc.touches (c : CopyDesc) (b : Nat) : Bool := c.ranges.any fun r => decide (r.lo / 2048 ≤ b) && decide (b ≤ r.hi / 2048)

/-- The line requests of a run of bytes, as address and size: each lies within one 64-byte line (R42, R43). -/
def lineRequests (a n : Nat) : List (Nat × Nat) := (lineCuts a n).map fun c => ((a + c.1) % 2 ^ 64, c.2)

/-! ### Issue (R234, R235) -/

/-- An ENGINE block (R50). -/
def Owner.isEngine : Owner → Bool
  | .engine _ => true
  | .fetch _ => true
  | _ => false

/-- Allocate the shadow pages of the pages that a CPPUT writes and that are homed on the writer's package (R64). -/
def State.shadowRows (s : State) (c : CopyDesc) : State :=
  (dedup ((c.probes s.curLaunch).map (· / 65536))).foldl (fun s vpn =>
    match s.xlate s.curL s.curP (vpn * 65536) with
    | some g =>
      if g.home == s.curP then
        match s.shadow s.curL g vpn with
        | some s' => s'
        | none => s.raiseB s.curL s.curP 0x44
      else s
    | none => s) s

/-- Start a copy: flip its blocks, return its tag, put its line requests on the tile's ring (R235). -/
def State.startCopy (s : State) (rd : Reg) (kind : CopyKind) (c : CopyDesc) : State :=
  let tag := s.bank.seq
  let i := s.curI
  let cp : Copy := { task := i, tag := tag, kind := kind, desc := c,
                     ring := (List.range c.rows).flatMap fun r => lineRequests (c.rowAddr r) c.bytes }
  let s := s.modCurTile fun x =>
    { x with copies := x.copies ++ [cp],
             ownCur := x.ownCur.mapIdx fun b o => if o == .own i && c.touches b then .engine i else o }
  let s := if kind == .put then s.shadowRows c else s
  (s.wx rd tag).advSeq

/-- A copy instruction (R234). -/
def copy (i : Instr) (kind : CopyKind) (rd rs1 : Reg) (s : State) : Host.Outcome State Fault Refusal :=
  issue i s fun s =>
    let a := s.rx rs1
    let tmSize := s.curLaunch.desc.tmSize
    let here : Range := { lo := a.toNat, hi := a.toNat + 31 }
    if a.toNat % 32 != 0 then .trap 0x02 a
    else if tmSize ≤ here.hi then .trap 0x03 a
    else if (s.curTile.owner a.toNat).isEngine then .trap 0x04 a
    else if (s.task s.cur).rangesBusy false [here] then .wait
    else
      let bs := s.ownBytes s.curL s.curT s.curI a.toNat 32
      let c := copyDescOf bs
      if !copyOk bs (kind == .get) then .trap 0x0C a
      else if 256 ≤ s.curTile.copies.length then .wait
      else match s.remoteCheck kind c with
        | some (e, v) => .trap e (BitVec.ofNat 64 v)
        | none => match s.tmCheck (fun _ o => copyOwner kind s.curI o) c.ranges with
          | some (e, v) => .trap e (BitVec.ofNat 64 v)
          | none => if (s.task s.cur).rangesBusy (kind != .put) c.ranges then .wait else .done (s.startCopy rd kind c)

def execCpget (rd rs1 : Reg) (s : State) := copy (.cpget rd rs1) .get rd rs1 s
def execCpput (rd rs1 : Reg) (s : State) := copy (.cpput rd rs1) .put rd rs1 s
def execCppeer (rd rs1 : Reg) (s : State) := copy (.cppeer rd rs1) .peer rd rs1 s

/-- Every copy the task issued in the superstep with a tag up to `v` is complete (R237). -/
def State.copiesDone (s : State) (v : Word) : Bool := !s.curTile.copies.any fun c => c.task == s.curI && decide (c.tag.toNat ≤ v.toNat)

def execCpwait (rs1 : Reg) (s : State) : Host.Outcome State Fault Refusal :=
  issue (.cpwait rs1) s fun s => if s.copiesDone (s.rx rs1) then .done s else .wait
/-- CPTEST (R237): which of its two outcomes comes depends on whether COPY_COMPLETE has occurred (log entry 2). -/
def execCptest (rd rs1 : Reg) (s : State) : Host.Outcome State Fault Refusal :=
  issue (.cptest rd rs1) s fun s => s.put rd (boolW (s.copiesDone (s.rx rs1)))

/-! ### Completion (R42, R235, R236) -/

/-- The source byte of byte `b` of TM row `r`: row and byte, transposed by the layout code (R61). -/
def CopyDesc.source (c : CopyDesc) (r b : Nat) : Nat × Nat :=
  match c.layout.toNat % 4 with
  | 1 => (r / 32 * 32 + b / 2, 2 * (r % 32) + b % 2)
  | 2 => (r / 64 * 64 + b, r % 64)
  | _ => (r, b)

/-- The bytes that a copy into TM brings to row `r`. -/
def State.copyRow (s : State) (l p : Nat) (kind : CopyKind) (c : CopyDesc) (r : Nat) : List Byte :=
  let x := s.launch l
  (List.range c.bytes).map fun b =>
    let q := c.source r b
    let a := (c.rowAddr q.1 + q.2) % 2 ^ 64
    match kind, regionOf x.desc.tmSize x.desc.ntile a with
    | .peer, .peer t off => s.tmByte l t off
    | _, _ => s.globByte l p a

/-- Pairs of consecutive addresses and bytes. -/
def withAddrs (a : Nat) (bs : List Byte) : List (Nat × Byte) := bs.zipIdx.map fun e => ((a + e.2) % 2 ^ 64, e.1)

/-- The writes of a copy, rows ascending, with the copy's key (R235). -/
def State.copyWrites (s : State) (l t : Nat) (cp : Copy) : State :=
  let p := s.tilePkg l t
  let key := fun e => { tile := t, task := cp.task, seq := cp.tag, eff := e : Pend }
  (List.range cp.desc.rows).foldl (fun s r =>
    let tm := (cp.desc.rowRange r).lo
    match cp.kind with
    | .put => (runs (withAddrs (cp.desc.rowAddr r) (s.ownBytes l t cp.task tm cp.desc.bytes))).foldl (fun s e => s.storeGlob l p e.1 e.2 key) s
    | _ => s.addPend l (key (.tmWrite t true tm (s.copyRow l p cp.kind cp.desc r)))) s

/-- An earlier copy of the same task whose TM side shares a block is still in flight (R236). -/
def blockedBy (cp : Copy) (earlier : List Copy) : Bool :=
  earlier.any fun c => c.task == cp.task && c.desc.blocks.any cp.desc.touches

/-- A copy, all of whose line requests have been served, is complete: its bytes are written, and each block it flipped
returns to its task unless another copy of the task touches it (R51, R235). -/
def State.completeCopy (s : State) (l t i : Nat) (tag : Word) : State :=
  let cs := (s.tile l t).copies
  let earlier := cs.takeWhile fun c => !(c.task == i && c.tag == tag)
  match cs.find? fun c => c.task == i && c.tag == tag with
  | some cp =>
    if cp.ring != [] || blockedBy cp earlier then s
    else
      let s := s.copyWrites l t cp
      s.modTile l t fun x =>
        let rest := x.copies.filter fun c => !(c.task == i && c.tag == tag)
        { x with copies := rest,
                 ownCur := x.ownCur.mapIdx fun b o =>
                   if o == .engine i && cp.desc.touches b && !rest.any (fun c => c.task == i && c.desc.touches b) then .own i else o }
  | none => s

def execCopyComplete (l t i : Nat) (tag : Word) (s : State) : Host.Outcome State Fault Refusal :=
  event (decide (i < 4)) s fun s => s.completeCopy l t i tag

/-- Serve requests of a ring within a deficit (R42). -/
def serveRing : Nat → List (Nat × Nat) → Nat × List (Nat × Nat)
  | d, [] => (d, [])
  | d, z :: zs => if z.2 ≤ d then serveRing (d - z.2) zs else (d, z :: zs)

def serveRings : Nat → List Copy → Nat × List Copy
  | d, [] => (d, [])
  | d, c :: cs =>
    let r := serveRing d c.ring
    if r.2 == [] then
      let q := serveRings r.1 cs
      (q.1, { c with ring := [] } :: q.2)
    else (r.1, { c with ring := r.2 } :: cs)

/-- One tile's part of a CCE round. -/
def Tile.cceRound (x : Tile) : Tile :=
  if x.copies.all (fun c => c.ring == []) then x
  else
    let q := serveRings (x.deficit + x.weight * 256) x.copies
    { x with copies := q.2, deficit := if q.2.all (fun c => c.ring == []) then 0 else q.1 }

/-- The remote lines that a tile's part of a round reads: those of its copies' requests that it serves. -/
def Tile.servedLines (x : Tile) : List Nat :=
  (x.copies.zip x.cceRound.copies).flatMap fun c =>
    if c.1.kind == .put then [] else (c.1.ring.take (c.1.ring.length - c.2.ring.length)).map (·.1)

/-- One round of weighted deficit round-robin over the tiles of a cluster (R42); a line that no path leads to is a lost packet
(R336, R338). -/
def State.cceRound (s : State) (p d c : Nat) : State :=
  let here := s.tiles.filter fun e => e.2.phys / 16 == physId p d c 0 / 16
  let s1 := { s with tiles := s.tiles.map fun e => if e.2.phys / 16 == physId p d c 0 / 16 then (e.1, e.2.cceRound) else e }
  here.foldl (fun s e => s.voteLost e.1.1 p e.2.servedLines) s1

def execCceRound (pkg die cluster : Nat) (s : State) : Host.Outcome State Fault Refusal :=
  event (okPkg pkg && decide (die < 8) && decide (cluster < 16)) s fun s => s.cceRound pkg die cluster

/-! ### Fetch lists (R238, R241) -/

/-- A block may be a fetch-list target of task `i`: as for a copy that writes it, and not given away in the superstep. -/
def State.fetchOwner (s : State) (b : Nat) (o : Owner) : Bool :=
  copyOwner .get s.curI o &&
    !s.curLaunch.pends.any fun p => p.tile == s.curT && p.task == s.curI && (match p.eff with | .give g _ => g == b | _ => false)

/-- The first entry that fails a check. -/
def firstFail {α β : Type} (f : α → Option β) : List α → Option β
  | [] => none
  | a :: l => match f a with
    | some b => some b
    | none => firstFail f l

/-- FLIST hands a fetch list to the page stager (R238). Its step 8 goes entry by entry, in list order (log entry 91). -/
def execFlist (rs1 : Reg) (s : State) : Host.Outcome State Fault Refusal :=
  issue (.flist rs1) s fun s =>
    let a := s.rx rs1
    let o := a.toNat
    let tmSize := s.curLaunch.desc.tmSize
    let rd := fun off n => s.ownBytes s.curL s.curT s.curI off n
    if o % 32 != 0 then .trap 0x02 a
    else if tmSize < o + 32 then .trap 0x03 a
    else if (s.task s.cur).rangesBusy false [{ lo := o, hi := o + 31 }] then .wait
    else
      let c := leNat (rd o 4)
      let whole : Range := { lo := o, hi := o + 31 + 32 * c }
      if 1024 < c then .trap 0x0C a
      else if tmSize ≤ whole.hi then .trap 0x03 (BitVec.ofNat 64 tmSize)
      else match s.curTile.lowestBad (fun _ w => !w.isEngine) [whole] with
        | some v => .trap 0x04 (BitVec.ofNat 64 v)
        | none =>
          if (s.task s.cur).rangesBusy false [whole] then .wait
          else
            let es := (List.range c).map fun e => (o + 32 + 32 * e, rd (o + 32 + 32 * e) 32)
            let ds := es.map fun e => copyDescOf e.2
            match firstFail (fun e => if copyOk e.2 true then none else some e.1) es with
            | some v => .trap 0x0C (BitVec.ofNat 64 v)
            | none => match firstFail (s.remoteCheck .get) ds with
              | some (e, v) => .trap e (BitVec.ofNat 64 v)
              | none => match firstFail (fun d => s.tmCheck s.fetchOwner d.ranges) ds with
                | some (e, v) => .trap e (BitVec.ofNat 64 v)
                | none =>
                  if (s.task s.cur).rangesBusy true (ds.flatMap (·.ranges)) then .wait
                  else if c == 0 then .done s
                  else
                    let f : Fetch := { tile := s.curT, task := s.curI, entries := ds }
                    .done ((s.modLaunch s.curL fun x => { x with fetchNext := x.fetchNext ++ [f] }).modCurTile fun x =>
                      { x with ownCur := x.ownCur.mapIdx fun b w => if ds.any (fun d => d.touches b) then .fetch s.curI else w })

/-! ### Ownership transfer (R242) -/

/-- GIVE transfers a block at commit (R242). -/
def execGive (rs1 rs2 : Reg) (s : State) : Host.Outcome State Fault Refusal :=
  issue (.give rs1 rs2) s fun s =>
    let a := s.rx rs1
    let j := (s.rx rs2).toNat
    if s.curLaunch.desc.tmSize ≤ a.toNat then .trap 0x03 a
    else if s.curLaunch.desc.tasks ≤ j then .trap 0x04 a
    else if s.curTile.owner a.toNat != .own s.curI then .trap 0x04 a
    else .done (s.queue (.give (a.toNat / 2048) j)).advSeq

end Sys2Proof.Machine
end

