-- ==== Sys2Proof/Machine/Vector.lean ====
section
/-!
DEFINITION. Vector and predicate instructions but memory and the SFU (R184-R210).
-/

namespace Sys2Proof.Machine

open Sys2Proof

/-! ### Elements (R184, R185) -/

/-- Element i of width w bits. -/
def elt (w : Nat) (v : Vec) (i : Nat) : Nat := v.toNat / 2 ^ (w * i) % 2 ^ w
/-- A register from n elements of width w. -/
def vbuild (w n : Nat) (f : Nat → Nat) : Vec := BitVec.ofNat 2048 ((List.range n).foldr (fun i acc => f i % 2 ^ w + 2 ^ w * acc) 0)
/-- A predicate from n elements of s byte lanes each. -/
def pbuild (s n : Nat) (f : Nat → Bool) : Pred :=
  BitVec.ofNat 256 ((List.range n).foldr (fun i acc => (if f i then 2 ^ s - 1 else 0) + 2 ^ s * acc) 0)

/-- The issuing task's rounding mode. -/
def State.rmode (s : State) : RMode := rmodeOf s.bank.rmode

/-- Element results in ascending order with the number of draws taken (R104, R189): `f i j` is element i, whose draw is the
j-th; inactive elements give none and take none. -/
def elems (act : Nat → Bool) (f : Nat → Nat → Nat × FFlags) (draws : Bool) : Nat → Nat → Nat → List (Option (Nat × FFlags)) × Nat
  | 0, _, j => ([], j)
  | n + 1, i, j =>
    if act i then
      let r := f i j
      let (l, k) := elems act f draws n (i + 1) (if draws then j + 1 else j)
      (some r :: l, k)
    else
      let (l, k) := elems act f draws n (i + 1) j
      (none :: l, k)

def orFlags (l : List (Option (Nat × FFlags))) : FFlags :=
  l.foldl (fun a e => match e with | some r => a ||| r.2 | none => a) 0

/-- Write the elements of an FP instruction (R189): `w` bits each, `m` processed, elements from `m` on zero; inactive ones
keep their bits; trap 0x0A instead if an enabled flag would be raised (R109, R190). -/
def fpWrite (s : State) (vd : Reg) (w m : Nat) (act : Nat → Bool) (draws : Bool) (f : Nat → Nat → Nat × FFlags) : Act :=
  let (l, j) := elems act f draws m 0 0
  let fl := orFlags l
  if s.bank.arithTrap fl then .trap 0x0A (flagsTval fl)
  else
    let old := s.vKept vd
    let v := vbuild w (2048 / w) fun i =>
      if i < m then (match l[i]? with | some (some r) => r.1 | _ => elt w old i) else 0
    .done (s.modBank fun b => ((b.wv vd v).raise fl).drew j)

/-- The draw bits of the j-th element draw (R106). -/
def State.drawBits (s : State) (j : Nat) : Nat := srBits s.pipkey s.bank.pipctr j

/-- An FP operation of two elements (and vd's own) by type (R110, R189). `rounded` tells whether it takes draws. -/
def vfp (i : Instr) (es : FpTy) (vd vs1 vs2 : Reg) (pg : Pg) (rounded : Bool) (op : FFmt → RMode → Nat → Nat → Nat → Nat → Nat × FFlags)
    (s : State) : Host.Outcome State Fault Refusal :=
  issue i s fun s =>
    let w := 8 * es.size
    let a := s.bank.rv vs1
    let b := s.bank.rv vs2
    let d := s.bank.rv vd
    let g := s.bank.rg pg
    fpWrite s vd w (256 / es.size) (fun k => g.getLsbD (es.size * k)) (rounded && s.rmode == .sr) fun k j =>
      op (fpFmt es) s.rmode (s.drawBits j) (elt w a k) (elt w b k) (elt w d k)

/-- Decode a code of a standard format. -/
def fd (f : FFmt) (c : Nat) : FVal := fdecode f true c

def opAdd (f : FFmt) (m : RMode) (r a b _d : Nat) : Nat × FFlags := fvRound f m r (fvAdd m (fd f a) (fd f b))
def opSub (f : FFmt) (m : RMode) (r a b _d : Nat) : Nat × FFlags := fvRound f m r (fvAdd m (fd f a) (fd f b).neg)
def opMul (f : FFmt) (m : RMode) (r a b _d : Nat) : Nat × FFlags := fvRound f m r (fvMul (fd f a) (fd f b))
def opFma (f : FFmt) (m : RMode) (r a b d : Nat) : Nat × FFlags := fvRound f m r (fvFma m (fd f d) (fd f a) (fd f b))
def opFnms (f : FFmt) (m : RMode) (r a b d : Nat) : Nat × FFlags := fvRound f m r (fvFma m (fd f d) (fd f a).neg (fd f b))
def opMin (f : FFmt) (m : RMode) (r a b _d : Nat) : Nat × FFlags := fvRound f m r (fvMin (fd f a) (fd f b))
def opMax (f : FFmt) (m : RMode) (r a b _d : Nat) : Nat × FFlags := fvRound f m r (fvMax (fd f a) (fd f b))
/-- Sign-bit operations keep every other bit (R92). -/
def signBit (f : FFmt) : Nat := 2 ^ (f.e + f.m)
def opAbs (f : FFmt) (_ : RMode) (_r a _b _d : Nat) : Nat × FFlags := (a % signBit f, 0)
def opNeg (f : FFmt) (_ : RMode) (_r a _b _d : Nat) : Nat × FFlags := (if a < signBit f then a + signBit f else a - signBit f, 0)
def opCpys (f : FFmt) (_ : RMode) (_r a b _d : Nat) : Nat × FFlags := (a % signBit f + b / signBit f * signBit f, 0)

def execVfadd (es : FpTy) (vd vs1 vs2 : Reg) (pg : Pg) (s : State) := vfp (.vfadd es vd vs1 vs2 pg) es vd vs1 vs2 pg true opAdd s
def execVfsub (es : FpTy) (vd vs1 vs2 : Reg) (pg : Pg) (s : State) := vfp (.vfsub es vd vs1 vs2 pg) es vd vs1 vs2 pg true opSub s
def execVfmul (es : FpTy) (vd vs1 vs2 : Reg) (pg : Pg) (s : State) := vfp (.vfmul es vd vs1 vs2 pg) es vd vs1 vs2 pg true opMul s
def execVfma (es : FpTy) (vd vs1 vs2 : Reg) (pg : Pg) (s : State) := vfp (.vfma es vd vs1 vs2 pg) es vd vs1 vs2 pg true opFma s
def execVfnms (es : FpTy) (vd vs1 vs2 : Reg) (pg : Pg) (s : State) := vfp (.vfnms es vd vs1 vs2 pg) es vd vs1 vs2 pg true opFnms s
def execVfmin (es : FpTy) (vd vs1 vs2 : Reg) (pg : Pg) (s : State) := vfp (.vfmin es vd vs1 vs2 pg) es vd vs1 vs2 pg false opMin s
def execVfmax (es : FpTy) (vd vs1 vs2 : Reg) (pg : Pg) (s : State) := vfp (.vfmax es vd vs1 vs2 pg) es vd vs1 vs2 pg false opMax s
def execVfabs (es : FpTy) (vd vs1 : Reg) (pg : Pg) (s : State) := vfp (.vfabs es vd vs1 pg) es vd vs1 vs1 pg false opAbs s
def execVfneg (es : FpTy) (vd vs1 : Reg) (pg : Pg) (s : State) := vfp (.vfneg es vd vs1 pg) es vd vs1 vs1 pg false opNeg s
def execVfcpys (es : FpTy) (vd vs1 vs2 : Reg) (pg : Pg) (s : State) := vfp (.vfcpys es vd vs1 vs2 pg) es vd vs1 vs2 pg false opCpys s

/-! ### Compares (R191) -/

/-- An FP compare: NV by R110 for active elements only. -/
def vfcmp (i : Instr) (es : FpTy) (pd : PReg) (vs1 vs2 : Reg) (pg : Pg) (rel : FVal → FVal → Bool) (quiet : Bool) (s : State) :
    Host.Outcome State Fault Refusal :=
  issue i s fun s =>
    let w := 8 * es.size
    let f := fpFmt es
    let a := s.bank.rv vs1
    let b := s.bank.rv vs2
    let g := s.bank.rg pg
    let n := 256 / es.size
    let act := fun k => g.getLsbD (es.size * k)
    let x := fun k => fd f (elt w a k)
    let y := fun k => fd f (elt w b k)
    let bad := fun k => if quiet then (x k).isSig || (y k).isSig else (x k).isNan || (y k).isNan
    let fl : FFlags := if (List.range n).any (fun k => act k && bad k) then .nv else 0
    if s.bank.arithTrap fl then .trap 0x0A (flagsTval fl)
    else .done (s.modBank fun bk => (bk.wp pd (pbuild es.size n fun k => act k && rel (x k) (y k))).raise fl)

def fvLe (a b : FVal) : Bool := fvLt false a b || fvEq a b

def execVfceq (es : FpTy) (pd : PReg) (vs1 vs2 : Reg) (pg : Pg) (s : State) := vfcmp (.vfceq es pd vs1 vs2 pg) es pd vs1 vs2 pg fvEq true s
def execVfclt (es : FpTy) (pd : PReg) (vs1 vs2 : Reg) (pg : Pg) (s : State) := vfcmp (.vfclt es pd vs1 vs2 pg) es pd vs1 vs2 pg (fvLt false) false s
def execVfcle (es : FpTy) (pd : PReg) (vs1 vs2 : Reg) (pg : Pg) (s : State) := vfcmp (.vfcle es pd vs1 vs2 pg) es pd vs1 vs2 pg fvLe false s

/-- An integer compare. -/
def vicmp (i : Instr) (es : IntTy) (pd : PReg) (vs1 vs2 : Reg) (pg : Pg) (rel : Nat → Nat → Nat → Bool) (s : State) :
    Host.Outcome State Fault Refusal :=
  issue i s fun s =>
    let w := 8 * es.size
    let a := s.bank.rv vs1
    let b := s.bank.rv vs2
    let g := s.bank.rg pg
    .done (s.modBank fun bk => bk.wp pd (pbuild es.size (256 / es.size) fun k => g.getLsbD (es.size * k) && rel w (elt w a k) (elt w b k)))

def execViceq (es : IntTy) (pd : PReg) (vs1 vs2 : Reg) (pg : Pg) (s : State) :=
  vicmp (.viceq es pd vs1 vs2 pg) es pd vs1 vs2 pg (fun _ a b => a == b) s
def execViclt (es : IntTy) (pd : PReg) (vs1 vs2 : Reg) (pg : Pg) (s : State) :=
  vicmp (.viclt es pd vs1 vs2 pg) es pd vs1 vs2 pg (fun w a b => decide (sint w a < sint w b)) s
def execVicltu (es : IntTy) (pd : PReg) (vs1 vs2 : Reg) (pg : Pg) (s : State) :=
  vicmp (.vicltu es pd vs1 vs2 pg) es pd vs1 vs2 pg (fun _ a b => decide (a < b)) s

/-! ### Lane reductions (R117, R192-R194) -/

/-- An FP reduction over the pairwise tree; a node joins the flags of its parts. -/
def vfred (i : Instr) (es : FpTy) (vd vs1 : Reg) (pg : Pg) (idle : Nat) (op : FFmt → RMode → Nat → Nat → Nat → Nat → Nat × FFlags) (s : State) :
    Host.Outcome State Fault Refusal :=
  issue i s fun s =>
    let w := 8 * es.size
    let f := fpFmt es
    let a := s.bank.rv vs1
    let g := s.bank.rg pg
    let n := 256 / es.size
    let act := fun k => g.getLsbD (es.size * k)
    let r := treeSum (fun (p q : Nat × FFlags) => let z := op f s.rmode.noSr 0 p.1 q.1 0; (z.1, z.2 ||| p.2 ||| q.2)) (0, 0) 8
      ((List.range n).map fun k => (if act k then elt w a k else idle, 0))
    let r := if (List.range n).any act then r else (0, 0)
    if s.bank.arithTrap r.2 then .trap 0x0A (flagsTval r.2)
    else .done (s.modBank fun b => (b.wv vd (BitVec.ofNat 2048 r.1)).raise r.2)

def execVfsumr (es : FpTy) (vd vs1 : Reg) (pg : Pg) (s : State) := vfred (.vfsumr es vd vs1 pg) es vd vs1 pg (signBit (fpFmt es)) opAdd s
def execVfmaxr (es : FpTy) (vd vs1 : Reg) (pg : Pg) (s : State) :=
  vfred (.vfmaxr es vd vs1 pg) es vd vs1 pg (signBit (fpFmt es) + (fpFmt es).infCode) opMax s

def execVisumr (es : IntTy) (vd vs1 : Reg) (pg : Pg) (s : State) : Host.Outcome State Fault Refusal :=
  issue (.visumr es vd vs1 pg) s fun s =>
    let w := 8 * es.size
    let a := s.bank.rv vs1
    let g := s.bank.rg pg
    let sum := (List.range (256 / es.size)).foldl (fun acc k => if g.getLsbD (es.size * k) then acc + elt w a k else acc) 0
    .done (s.modBank fun b => b.wv vd (BitVec.ofNat 2048 (sum % 2 ^ w)))

/-! ### Conversion (R111, R195, R196) -/

/-- Convert a source code: FP by R111, an integer exactly rounded, zero giving +0. -/
def cvt (src : SrcTy) (f : FFmt) (m : RMode) (r : Nat) (c : Nat) : Nat × FFlags :=
  let int := fun (w : Nat) =>
    let v := sint w c
    if v == 0 then (0, 0) else fround f m r (decide (v < 0)) v.natAbs 0
  match src with
  | .f32 => fencode f m r (fd fp32 c)
  | .bf16 => fencode f m r (fd bf16 c)
  | .f16 => fencode f m r (fd fp16 c)
  | .i32 => int 32
  | .i64 => int 64

def execVfcvt (es : FpTy) (src : SrcTy) (vd vs1 : Reg) (pg : Pg) (s : State) : Host.Outcome State Fault Refusal :=
  issue (.vfcvt es src vd vs1 pg) s fun s =>
    let a := s.bank.rv vs1
    let g := s.bank.rg pg
    fpWrite s vd (8 * es.size) (256 / max src.size es.size) (fun k => g.getLsbD (es.size * k)) (s.rmode == .sr) fun k j =>
      cvt src (fpFmt es) s.rmode (s.drawBits j) (elt (8 * src.size) a k)

/-! ### Narrow formats and scales (R199-R203) -/

/-- The format register named by an index. -/
def State.fmtReg (s : State) (f : BitVec 3) : BitVec 32 := s.bank.fmt[f.toNat]
/-- A valid format of KIND 00 (R199). -/
def narrowOk (r : BitVec 32) : Bool := fmtValid r && fmtKind r == 0

def execVcvtn (vd vs1 : Reg) (f : BitVec 3) (pg : Pg) (s : State) : Host.Outcome State Fault Refusal :=
  issue (.vcvtn vd vs1 f pg) s fun s =>
    let r := s.fmtReg f
    if !narrowOk r then .trap 0x0D (f.zeroExtend 64)
    else
      let a := s.bank.rv vs1
      let g := s.bank.rg pg
      fpWrite s vd (fmtClass r).bits 64 (fun k => g.getLsbD (4 * k)) (s.rmode == .sr) fun k j =>
        fencode (fmtOf r) s.rmode (s.drawBits j) (fd fp32 (elt 32 a k))

/-- The FP32 code of a narrow code (R96, R111): exact, a NaN the canonical one. -/
def widen (r : BitVec 32) (c : Nat) : Nat :=
  (fencode fp32 .rne 0 (fdecode (fmtOf r) false (c % 2 ^ fmtW r))).1

def execVcvtw (vd vs1 : Reg) (f : BitVec 3) (pg : Pg) (s : State) : Host.Outcome State Fault Refusal :=
  issue (.vcvtw vd vs1 f pg) s fun s =>
    let r := s.fmtReg f
    if !narrowOk r then .trap 0x0D (f.zeroExtend 64)
    else
      let a := s.bank.rv vs1
      let g := s.bank.rg pg
      fpWrite s vd 32 64 (fun k => g.getLsbD (4 * k)) false fun k _ => (widen r (elt (fmtClass r).bits a k), 0)

def execVbmax (vd vs1 : Reg) (f : BitVec 3) (pg : Pg) (s : State) : Host.Outcome State Fault Refusal :=
  issue (.vbmax vd vs1 f pg) s fun s =>
    let r := s.fmtReg f
    if !narrowOk r then .trap 0x0D (f.zeroExtend 64)
    else
      let a := s.bank.rv vs1
      let g := s.bank.rg pg
      let act := fun k => g.getLsbD (4 * k)
      let x := fun k => fd fp32 (elt 32 a k)
      let fl : FFlags := if (List.range 64).any (fun k => act k && (x k).isSig) then .nv else 0
      if s.bank.arithTrap fl then .trap 0x0A (flagsTval fl)
      else
        let v := vbuild 8 2 fun b => scalesel (((List.range 32).filter fun t => act (32 * b + t)).map fun t => x (32 * b + t)) (fmtOf r)
        .done (s.modBank fun bk => (bk.wv vd v).raise fl)

def execVscale (vd vs1 vs2 : Reg) (pg : Pg) (s : State) : Host.Outcome State Fault Refusal :=
  issue (.vscale vd vs1 vs2 pg) s fun s =>
    let a := s.bank.rv vs1
    let b := s.bank.rv vs2
    let g := s.bank.rg pg
    fpWrite s vd 32 64 (fun k => g.getLsbD (4 * k)) (s.rmode == .sr) fun k j =>
      let c := elt 8 b (k / 32)
      let x := fd fp32 (elt 32 a k)
      if c == 255 then (0x7FC00000, if x.isSig then .nv else 0)
      else fencode fp32 s.rmode (s.drawBits j) (x.scale ((c : Int) - 127))

/-! ### Integer elements (R204) -/

/-- Write active elements by a function of the element's index; others keep their bits. -/
def intWrite (s : State) (vd : Reg) (w : Nat) (act : Nat → Bool) (f : Nat → Nat) : State :=
  let old := s.vKept vd
  s.modBank fun b => b.wv vd (vbuild w (2048 / w) fun i => if act i then f i else elt w old i)

def vint (i : Instr) (es : IntTy) (vd vs1 vs2 : Reg) (pg : Pg) (op : Nat → Nat → Nat → Nat) (s : State) : Host.Outcome State Fault Refusal :=
  issue i s fun s =>
    let w := 8 * es.size
    let a := s.bank.rv vs1
    let b := s.bank.rv vs2
    let g := s.bank.rg pg
    .done (intWrite s vd w (fun k => g.getLsbD (es.size * k)) fun k => op w (elt w a k) (elt w b k))

/-- A signed number as a w-bit code. -/
def wrap (w : Nat) (x : Int) : Nat := (x % (2 ^ w : Nat)).toNat

def execVadd (es : IntTy) (vd vs1 vs2 : Reg) (pg : Pg) (s : State) := vint (.vadd es vd vs1 vs2 pg) es vd vs1 vs2 pg (fun _ a b => a + b) s
def execVsub (es : IntTy) (vd vs1 vs2 : Reg) (pg : Pg) (s : State) := vint (.vsub es vd vs1 vs2 pg) es vd vs1 vs2 pg (fun w a b => 2 ^ w + a - b) s
def execVmul (es : IntTy) (vd vs1 vs2 : Reg) (pg : Pg) (s : State) := vint (.vmul es vd vs1 vs2 pg) es vd vs1 vs2 pg (fun _ a b => a * b) s
def execVmulh (es : IntTy) (vd vs1 vs2 : Reg) (pg : Pg) (s : State) :=
  vint (.vmulh es vd vs1 vs2 pg) es vd vs1 vs2 pg (fun w a b => wrap w (sint w a * sint w b / (2 ^ w : Nat))) s
def execVand (es : IntTy) (vd vs1 vs2 : Reg) (pg : Pg) (s : State) := vint (.vand es vd vs1 vs2 pg) es vd vs1 vs2 pg (fun _ a b => a &&& b) s
def execVor (es : IntTy) (vd vs1 vs2 : Reg) (pg : Pg) (s : State) := vint (.vor es vd vs1 vs2 pg) es vd vs1 vs2 pg (fun _ a b => a ||| b) s
def execVxor (es : IntTy) (vd vs1 vs2 : Reg) (pg : Pg) (s : State) := vint (.vxor es vd vs1 vs2 pg) es vd vs1 vs2 pg (fun _ a b => a ^^^ b) s
def execVsll (es : IntTy) (vd vs1 vs2 : Reg) (pg : Pg) (s : State) :=
  vint (.vsll es vd vs1 vs2 pg) es vd vs1 vs2 pg (fun w a b => a * 2 ^ (b % w)) s
def execVsrl (es : IntTy) (vd vs1 vs2 : Reg) (pg : Pg) (s : State) :=
  vint (.vsrl es vd vs1 vs2 pg) es vd vs1 vs2 pg (fun w a b => a / 2 ^ (b % w)) s
def execVsra (es : IntTy) (vd vs1 vs2 : Reg) (pg : Pg) (s : State) :=
  vint (.vsra es vd vs1 vs2 pg) es vd vs1 vs2 pg (fun w a b => wrap w (sint w a / (2 ^ (b % w) : Nat))) s
def execVmin (es : IntTy) (vd vs1 vs2 : Reg) (pg : Pg) (s : State) :=
  vint (.vmin es vd vs1 vs2 pg) es vd vs1 vs2 pg (fun w a b => if sint w a ≤ sint w b then a else b) s
def execVmax (es : IntTy) (vd vs1 vs2 : Reg) (pg : Pg) (s : State) :=
  vint (.vmax es vd vs1 vs2 pg) es vd vs1 vs2 pg (fun w a b => if sint w a ≤ sint w b then b else a) s
def execVminu (es : IntTy) (vd vs1 vs2 : Reg) (pg : Pg) (s : State) := vint (.vminu es vd vs1 vs2 pg) es vd vs1 vs2 pg (fun _ a b => min a b) s
def execVmaxu (es : IntTy) (vd vs1 vs2 : Reg) (pg : Pg) (s : State) := vint (.vmaxu es vd vs1 vs2 pg) es vd vs1 vs2 pg (fun _ a b => max a b) s

/-! ### Moves and permutes (R205-R207) -/

/-- A predicate as a byte mask. -/
def maskOf (g : Pred) : Vec := vbuild 8 256 fun j => if g.getLsbD j then 255 else 0

def execVsel (vd vs1 vs2 : Reg) (pg : Pg) (s : State) : Host.Outcome State Fault Refusal :=
  issue (.vsel vd vs1 vs2 pg) s fun s =>
    let m := maskOf (s.bank.rg pg)
    .done (s.modBank fun b => b.wv vd ((b.rv vs1 &&& m) ||| (b.rv vs2 &&& ~~~m)))

/-- A permute: element i of vd from its index. -/
def vperm (i : Instr) (es : IntTy) (vd : Reg) (pg : Pg) (f : State → Nat → Nat → Nat → Nat) (s : State) : Host.Outcome State Fault Refusal :=
  issue i s fun s =>
    let w := 8 * es.size
    let g := s.bank.rg pg
    .done (intWrite s vd w (fun k => g.getLsbD (es.size * k)) (f s w (256 / es.size)))

def execVperm (es : IntTy) (vd vs1 vs2 : Reg) (pg : Pg) (s : State) :=
  vperm (.vperm es vd vs1 vs2 pg) es vd pg (fun s w n i => let k := elt w (s.bank.rv vs2) i; if k < n then elt w (s.bank.rv vs1) k else 0) s
def execVslup (es : IntTy) (vd vs2 rs1 : Reg) (pg : Pg) (s : State) :=
  vperm (.vslup es vd vs2 rs1 pg) es vd pg
    (fun s w _ i => if (s.rx rs1).toNat ≤ i then elt w (s.bank.rv vs2) (i - (s.rx rs1).toNat) else 0) s
def execVsldn (es : IntTy) (vd vs2 rs1 : Reg) (pg : Pg) (s : State) :=
  vperm (.vsldn es vd vs2 rs1 pg) es vd pg
    (fun s w n i => if i + (s.rx rs1).toNat < n then elt w (s.bank.rv vs2) (i + (s.rx rs1).toNat) else 0) s
def execVzip (es : IntTy) (vd vs1 vs2 : Reg) (pg : Pg) (s : State) :=
  vperm (.vzip es vd vs1 vs2 pg) es vd pg
    (fun s w _ i => if i % 2 == 0 then elt w (s.bank.rv vs1) (i / 2) else elt w (s.bank.rv vs2) (i / 2)) s
def execVunzip (es : IntTy) (vd vs1 vs2 : Reg) (pg : Pg) (s : State) :=
  vperm (.vunzip es vd vs1 vs2 pg) es vd pg
    (fun s w n i => if i < n / 2 then elt w (s.bank.rv vs1) (2 * i) else elt w (s.bank.rv vs2) (2 * (i - n / 2))) s
def execViota (es : IntTy) (vd : Reg) (pg : Pg) (s : State) :=
  vperm (.viota es vd pg) es vd pg
    (fun s _ _ i => ((List.range i).filter fun k => (s.bank.rg pg).getLsbD (es.size * k)).length) s
def execVdupx (es : IntTy) (vd rs1 : Reg) (pg : Pg) (s : State) :=
  vperm (.vdupx es vd rs1 pg) es vd pg (fun s _ _ _ => (s.rx rs1).toNat) s

def execVmvxs (es : IntTy) (rd vs2 rs1 : Reg) (s : State) : Host.Outcome State Fault Refusal :=
  issue (.vmvxs es rd vs2 rs1) s fun s =>
    let w := 8 * es.size
    let k := (s.rx rs1).toNat
    s.put rd (if k < 256 / es.size then sextN w (elt w (s.bank.rv vs2) k) else 0)

/-! ### Predicates (R208) -/

def execPwhilelt (es : IntTy) (pd : PReg) (rs1 rs2 : Reg) (s : State) : Host.Outcome State Fault Refusal :=
  issue (.pwhilelt es pd rs1 rs2) s fun s =>
    .done (s.modBank fun b => b.wp pd (pbuild es.size (256 / es.size) fun i => decide ((b.rx rs1).toInt + i < (b.rx rs2).toInt)))

def plogic (i : Instr) (pd ps1 ps2 : PReg) (f : Pred → Pred → Pred) (s : State) : Host.Outcome State Fault Refusal :=
  issue i s fun s => .done (s.modBank fun b => b.wp pd (f (b.rp ps1) (b.rp ps2)))

def execPlogicAnd (pd ps1 ps2 : PReg) (s : State) := plogic (.plogicAnd pd ps1 ps2) pd ps1 ps2 (· &&& ·) s
def execPlogicOr (pd ps1 ps2 : PReg) (s : State) := plogic (.plogicOr pd ps1 ps2) pd ps1 ps2 (· ||| ·) s
def execPlogicXor (pd ps1 ps2 : PReg) (s : State) := plogic (.plogicXor pd ps1 ps2) pd ps1 ps2 (· ^^^ ·) s
def execPlogicAndn (pd ps1 ps2 : PReg) (s : State) := plogic (.plogicAndn pd ps1 ps2) pd ps1 ps2 (fun a b => a &&& ~~~b) s

def execPcnt (es : IntTy) (rd : Reg) (ps1 : PReg) (s : State) : Host.Outcome State Fault Refusal :=
  issue (.pcnt es rd ps1) s fun s =>
    s.put rd (BitVec.ofNat 64 ((List.range (256 / es.size)).filter fun i => (s.bank.rp ps1).getLsbD (es.size * i)).length)

def execPfirst (es : IntTy) (pd ps1 : PReg) (s : State) : Host.Outcome State Fault Refusal :=
  issue (.pfirst es pd ps1) s fun s =>
    let p := s.bank.rp ps1
    let first := (List.range (256 / es.size)).find? fun i => p.getLsbD (es.size * i)
    .done (s.modBank fun b => b.wp pd (pbuild es.size (256 / es.size) fun i => first == some i))

/-! ### Immediate forms (R133, R209, R210) -/

/-- VI element type as an FP type. -/
def viTy : ViTy → FpTy
  | .f32 => .f32 | .bf16 => .bf16 | .f16 => .f16 | .fp8 => .f32

/-- The immediate as a code of the element type: a BF16 code widened bit for bit for FP32 (R133, R209). -/
def viCode (es : ViTy) (imm : BitVec 16) : Nat := if es == .f32 then imm.toNat * 65536 else imm.toNat

def execVli (es : ViTy) (vd : Reg) (imm : BitVec 16) (s : State) : Host.Outcome State Fault Refusal :=
  issue (.vli es vd imm) s fun s =>
    match es with
    | .fp8 =>
      let r := s.fmtReg 0
      if narrowOk r && fmtClass r == .c8 then .done (s.modBank fun b => b.wv vd (vbuild 16 128 fun _ => imm.toNat))
      else .trap 0x0D 0
    | .f32 => .done (s.modBank fun b => b.wv vd (vbuild 32 64 fun _ => imm.toNat * 65536))
    | .bf16 => .done (s.modBank fun b => b.wv vd (vbuild 16 128 fun _ => imm.toNat))
    | .f16 => .done (s.modBank fun b => b.wv vd (vbuild 16 128 fun _ => imm.toNat))

/-- VADDI, VMULI, VMAXI: every element with the immediate. -/
def viop (i : Instr) (es : ViTy) (vd : Reg) (imm : BitVec 16) (rounded : Bool) (op : FFmt → RMode → Nat → Nat → Nat → Nat → Nat × FFlags)
    (s : State) : Host.Outcome State Fault Refusal :=
  issue i s fun s =>
    let t := viTy es
    let d := s.bank.rv vd
    fpWrite s vd (8 * t.size) (256 / t.size) (fun _ => true) (rounded && s.rmode == .sr) fun k j =>
      op (fpFmt t) s.rmode (s.drawBits j) (elt (8 * t.size) d k) (viCode es imm) 0

def execVaddi (es : ViTy) (vd : Reg) (imm : BitVec 16) (s : State) := viop (.vaddi es vd imm) es vd imm true opAdd s
def execVmuli (es : ViTy) (vd : Reg) (imm : BitVec 16) (s : State) := viop (.vmuli es vd imm) es vd imm true opMul s
def execVmaxi (es : ViTy) (vd : Reg) (imm : BitVec 16) (s : State) := viop (.vmaxi es vd imm) es vd imm false opMax s

end Sys2Proof.Machine
end

