-- ==== Sys2Proof/Machine/Msg.lean ====
section
/-!
DEFINITION. Remote atomics, messages, reduction pages, counters, group reductions and the Broadcast Table (R243-R251).
-/

namespace Sys2Proof.Machine

open Sys2Proof

/-! ### Remote atomics (R243) -/

/-- The size of a remote atomic's word. -/
def AOp.size : AOp → Nat
  | .addw => 4
  | .fadds => 4
  | _ => 8

/-- A remote atomic on own or peer TM: one commit-time effect (R243). -/
def remoteAtomic (i : Instr) (op : AOp) (rs2 rs1 : Reg) (s : State) : Host.Outcome State Fault Refusal :=
  issue i s fun s =>
    let ea := s.rx rs1
    let x := s.curLaunch
    if ea.toNat % op.size != 0 then .trap 0x02 ea
    else match regionOf x.desc.tmSize x.desc.ntile ea.toNat with
      | .own off => .done (s.queue (.atomic s.curT op off (s.rx rs2))).advSeq
      | .peer t off =>
        if (s.tile s.curL t).retired then .trap 0x06 ea
        else .done (s.queueTo t (lineOf ea.toNat) (.atomic t op off (s.rx rs2))).advSeq
      | _ => .trap 0x03 ea

def execRaddw (rs2 rs1 : Reg) (s : State) := remoteAtomic (.raddw rs2 rs1) .addw rs2 rs1 s
def execRaddd (rs2 rs1 : Reg) (s : State) := remoteAtomic (.raddd rs2 rs1) .addd rs2 rs1 s
def execRfadds (rs2 rs1 : Reg) (s : State) := remoteAtomic (.rfadds rs2 rs1) .fadds rs2 rs1 s
def execRmind (rs2 rs1 : Reg) (s : State) := remoteAtomic (.rmind rs2 rs1) .mind rs2 rs1 s
def execRmaxd (rs2 rs1 : Reg) (s : State) := remoteAtomic (.rmaxd rs2 rs1) .maxd rs2 rs1 s
def execRord (rs2 rs1 : Reg) (s : State) := remoteAtomic (.rord rs2 rs1) .ord rs2 rs1 s
def execRandd (rs2 rs1 : Reg) (s : State) := remoteAtomic (.randd rs2 rs1) .andd rs2 rs1 s
def execRxord (rs2 rs1 : Reg) (s : State) := remoteAtomic (.rxord rs2 rs1) .xord rs2 rs1 s

/-! ### Messages (R244, R245) -/

/-- The peer address of a tile's mailbox, by which its messages are routed (R336). -/
def mailAddr (x : Launch) (t : Nat) : Word := BitVec.ofNat 64 (0x10000000000 + t * 0x200000 + x.desc.mbBase)

/-- The members of a group that are not retired (R245). -/
def State.members (s : State) (l g : Nat) : List Nat := ((s.launch l).groups.getD g []).filter fun t => !(s.tile l t).retired

/-- Queue a message to each target, all with the one key (R245). -/
def State.sendTo (s : State) (ts : List Nat) (payload : List Byte) : State :=
  ts.foldl (fun s t => s.queueTo t (mailAddr s.curLaunch t) (.msg t payload)) s

/-- SEND queues one message (R244). -/
def execSend (rs1 rs2 : Reg) (s : State) : Host.Outcome State Fault Refusal :=
  issue (.send rs1 rs2) s fun s =>
    let a := s.rx rs1
    let b := s.rx rs2
    let x := s.curLaunch
    let target := bits b.toNat 0 32
    let len := bits b.toNat 32 16
    let multi := bitAt b.toNat 63
    let r : Range := { lo := a.toNat, hi := a.toNat + len - 1 }
    let rs := if len == 0 then [] else [r]
    if 4096 < len || bits b.toNat 48 15 != 0 then operandFault b
    else if x.desc.mbSize == 0 then .trap 0x03 b
    else if len != 0 && a.toNat % 16 != 0 then .trap 0x02 a
    else match s.tmCheck (fun _ o => !o.isEngine) rs with
      | some (c, v) => .trap c (BitVec.ofNat 64 v)
      | none =>
        if !multi && x.desc.ntile ≤ target then .trap 0x03 b
        else if multi && x.desc.ngroups ≤ target then operandFault b
        else if !multi && (s.tile s.curL target).retired then .trap 0x06 b
        else if (s.task s.cur).rangesBusy false rs then .wait
        else
          let payload := s.ownBytes s.curL s.curT s.curI a.toNat len
          .done (s.sendTo (if multi then s.members s.curL target else [target]) payload).advSeq

/-! ### Reduction pages and counters (R246, R247) -/

/-- The integer an operand contributes: FP32 × 2^s rounded by RNE; none for a NaN or an infinity (R80, R116). -/
def redContrib (code : Nat) (scale : Int) : Option Int :=
  match fd fp32 code with
  | .num n m e => some (
      let q := (roundInt .rne n 0 m (e + scale)).1
      if n then -(q : Int) else (q : Int))
  | _ => none

/-- A REDADD contribution reaches its page's home: the first of a superstep allocates a shadow page (R64, R246). -/
def State.redArrive (s : State) (l home : Nat) (va : Nat) (p : Pend) (blame : Nat) : State :=
  match s.xlate l home va with
  | some g =>
    match s.shadow l g (va / 65536) with
    | some s' => s'.addPend l p
    | none => (s.addPend l p).raiseB l blame 0x44
  | none => s

/-- REDADD contributes to a word of a reduction page (R246). -/
def execRedadd (rs2 rs1 : Reg) (s : State) : Host.Outcome State Fault Refusal :=
  issue (.redadd rs2 rs1) s fun s =>
    let ea := s.rx rs1
    let va := ea.toNat
    let l := s.curL
    let p := s.curP
    if va % 8 != 0 then .trap 0x02 ea
    else if !isGlob va then .trap 0x03 ea
    else match s.xlate l p va with
      | none => .trap 0x05 ea
      | some g =>
        if !s.permitted l p .redadd va then .trap 0x03 ea
        else
          let c := redContrib ((s.rx rs2).toNat % 2 ^ 32) (s.redScale l g va)
          let e := s.curPend (.redAdd ea (c.getD 0) c.isSome)
          if g.home == p then .done (s.redArrive l p va e p).advSeq
          else .done (s.send l g.home (lineOf (g.ppn * 65536 + va % 65536)) p [e]).advSeq

/-- GFAA adds at once and returns the counter's old value (R81, R247). The add is made at the counter's home: here, or when the
request that crosses the fabric arrives there (R340); the counter's VA selects its path (log entry 66). An address without a valid page is
not in the counter region, which lies in pages (R81): it raises 0x03, for R254's row for GFAA lists no 0x05 (log entry 87). -/
def execGfaa (rd rs2 rs1 : Reg) (s : State) : Host.Outcome State Fault Refusal :=
  issue (.gfaa rd rs2 rs1) s fun s =>
    let ea := s.rx rs1
    let va := ea.toNat
    let x := s.curLaunch
    let dst : RegId := { file := .x, num := rd.toNat }
    if va % 8 != 0 then .trap 0x02 ea
    else if !x.inCounters va then .trap 0x03 ea
    else if x.desc.det then .trap 0x0E ea
    else match s.xlate s.curL s.curP va with
      | some g =>
        let a := g.ppn * 65536 + va % 65536
        if pteSec g.pte || !s.physOk g x.dom then .trap 0x03 ea
        else if g.home == s.curP then
          let r := s.gfaaAt g.home a (s.rx rs2)
          .done (r.1.later dst (.value (BitVec.ofNat 2048 r.2)))
        else .done ((s.sendPacket s.curL g.home ea s.curP [] (some { slot := s.cur, id := s.free, addr := a, add := s.rx rs2 })).later dst
          (.gfaa s.free)).tick
      | none => .trap 0x03 ea

/-! ### Group reductions (R248, R249) -/

def GOp.code : GOp → Nat
  | .addd => 0 | .mind => 1 | .maxd => 2 | .andd => 3 | .ord => 4 | .xord => 5 | .fadds => 6 | .fmins => 7 | .fmaxs => 8

/-- The identity of a group operation (R115); +0 for FADDS (R114). -/
def GOp.identity : GOp → Word
  | .mind => 0x7FFFFFFFFFFFFFFF
  | .maxd => 0x8000000000000000
  | .andd => 0xFFFFFFFFFFFFFFFF
  | .fmins => 0x7F800000
  | .fmaxs => 0xFF800000
  | _ => 0

def GOp.isFp : GOp → Bool
  | .fadds | .fmins | .fmaxs => true
  | _ => false

/-- The issuing tile is a member of a group of the launch (R248). -/
def State.memberOf (s : State) (g : Word) : Bool :=
  decide (g.toNat < s.curLaunch.desc.ngroups) && (s.curLaunch.groups.getD g.toNat []).contains s.curT

/-- GRED contributes x[rs1] to a group's reduction (R248). -/
def gred (i : Instr) (op : GOp) (rs1 rs2 : Reg) (s : State) : Host.Outcome State Fault Refusal :=
  issue i s fun s =>
    let g := s.rx rs2
    if !s.memberOf g then operandFault g
    else .done (s.queue (.gred g.toNat op (if op.isFp then s.rx rs1 &&& 0xFFFFFFFF else s.rx rs1)))

def execGredAddd (rs1 rs2 : Reg) (s : State) := gred (.gredAddd rs1 rs2) .addd rs1 rs2 s
def execGredMind (rs1 rs2 : Reg) (s : State) := gred (.gredMind rs1 rs2) .mind rs1 rs2 s
def execGredMaxd (rs1 rs2 : Reg) (s : State) := gred (.gredMaxd rs1 rs2) .maxd rs1 rs2 s
def execGredAndd (rs1 rs2 : Reg) (s : State) := gred (.gredAndd rs1 rs2) .andd rs1 rs2 s
def execGredOrd (rs1 rs2 : Reg) (s : State) := gred (.gredOrd rs1 rs2) .ord rs1 rs2 s
def execGredXord (rs1 rs2 : Reg) (s : State) := gred (.gredXord rs1 rs2) .xord rs1 rs2 s
def execGredFadds (rs1 rs2 : Reg) (s : State) := gred (.gredFadds rs1 rs2) .fadds rs1 rs2 s
def execGredFmins (rs1 rs2 : Reg) (s : State) := gred (.gredFmins rs1 rs2) .fmins rs1 rs2 s
def execGredFmaxs (rs1 rs2 : Reg) (s : State) := gred (.gredFmaxs rs1 rs2) .fmaxs rs1 rs2 s

/-- A result of the last commit, or the identity (R249). -/
def Tile.gresOf (x : Tile) (g : Nat) (op : GOp) : Word :=
  match x.gres.find? fun e => e.1 == (g, op.code) with
  | some e => e.2
  | none => op.identity

/-- GRES returns the group's result as combined at the last commit (R249). -/
def gres (i : Instr) (op : GOp) (rd rs1 : Reg) (s : State) : Host.Outcome State Fault Refusal :=
  issue i s fun s =>
    let g := s.rx rs1
    if !s.memberOf g then operandFault g else s.put rd (s.curTile.gresOf g.toNat op)

def execGresAddd (rd rs1 : Reg) (s : State) := gres (.gresAddd rd rs1) .addd rd rs1 s
def execGresMind (rd rs1 : Reg) (s : State) := gres (.gresMind rd rs1) .mind rd rs1 s
def execGresMaxd (rd rs1 : Reg) (s : State) := gres (.gresMaxd rd rs1) .maxd rd rs1 s
def execGresAndd (rd rs1 : Reg) (s : State) := gres (.gresAndd rd rs1) .andd rd rs1 s
def execGresOrd (rd rs1 : Reg) (s : State) := gres (.gresOrd rd rs1) .ord rd rs1 s
def execGresXord (rd rs1 : Reg) (s : State) := gres (.gresXord rd rs1) .xord rd rs1 s
def execGresFadds (rd rs1 : Reg) (s : State) := gres (.gresFadds rd rs1) .fadds rd rs1 s
def execGresFmins (rd rs1 : Reg) (s : State) := gres (.gresFmins rd rs1) .fmins rd rs1 s
def execGresFmaxs (rd rs1 : Reg) (s : State) := gres (.gresFmaxs rd rs1) .fmaxs rd rs1 s

/-! ### The Broadcast Table (R75, R76, R250, R251) -/

/-- Queued writes of a tile in the superstep. -/
def State.bstCount (s : State) (l t : Nat) : Nat :=
  ((s.launch l).pends.filter fun p => p.tile == t && (match p.eff with | .bst _ _ => true | _ => false)).length +
    (s.fabric.filter fun k => k.launch == l && k.pends.any fun p => p.tile == t && (match p.eff with | .bst _ _ => true | _ => false)).length

/-- BST queues a write of the Broadcast Table on the package that sends the launch's broadcasts (R75, R250). -/
def execBst (rs1 rs2 : Reg) (s : State) : Host.Outcome State Fault Refusal :=
  issue (.bst rs1 rs2) s fun s =>
    let a := s.rx rs1
    if 512 ≤ a.toNat then .trap 0x03 a
    else if 64 ≤ s.bstCount s.curL s.curT then operandFault a
    else .done (s.hold s.curL (s.curLaunch.pkgs.headD s.curP) 0 s.curP [s.curPend (.bst a.toNat (s.rx rs2))]).advSeq

/-- BLD returns the entry as it stood at the reader's last commit (R76, R251). -/
def execBld (rd rs1 : Reg) (s : State) : Host.Outcome State Fault Refusal :=
  issue (.bld rd rs1) s fun s =>
    let a := s.rx rs1
    if 512 ≤ a.toNat then .trap 0x03 a
    else s.put rd (Tab.get (s.lpkg s.curL s.curP).bt 0 a.toNat)

end Sys2Proof.Machine
end

