-- ==== Sys2Proof/Machine/Qru.lean ====
section
/-!
DEFINITION. The quasi-random unit and PIPV (R106, R121, R277-R282).
-/

namespace Sys2Proof.Machine

open Sys2Proof

/-! ### The point function (R121) -/

def mix32 (seed hi d : BitVec 32) : BitVec 32 :=
  let h := seed ^^^ (hi * 0x85EBCA6B) ^^^ (d * 0xC2B2AE35)
  let h := (h ^^^ (h >>> 16)) * 0x7FEB352D
  let h := (h ^^^ (h >>> 15)) * 0x846CA68B
  h ^^^ (h >>> 16)

/-- Reverse the order of 32 bits. -/
def bitrev32 (x : BitVec 32) : BitVec 32 := x.reverse

/-- v[d][j] of a direction table (R278). -/
def dirWord (tab : Memory) (d j : Nat) : BitVec 32 := BitVec.ofNat 32 (tab.nat (128 * d + 4 * j) 4)

/-- Row d of the table. -/
def dirRow (tab : Memory) (d : Nat) : List (BitVec 32) := (List.range 32).map (dirWord tab d)

/-- XOR of the words whose index bit is set. -/
def dirXor (lo : BitVec 32) (row : List (BitVec 32)) : BitVec 32 :=
  row.zipIdx.foldl (fun x e => if lo.getLsbD e.2 then x ^^^ e.1 else x) 0

/-- The last steps of QMODE 2. -/
def scramble2 (x s : BitVec 32) : BitVec 32 :=
  let y := bitrev32 x + s
  let y := y ^^^ (y * 0x6C8E9CF4)
  let y := y ^^^ (y * 0xB5297A4C)
  let y := y ^^^ (y * 0x68E31DA4)
  let y := y ^^^ (y * 0x1B56C4E8)
  bitrev32 y

/-- point(n, d) with row d of the table (R121). -/
def point (row : List (BitVec 32)) (qseed : BitVec 32) (qmode : BitVec 2) (n : Word) (d : Nat) : BitVec 32 :=
  let lo := n.setWidth 32
  let hi : BitVec 32 := n.extractLsb' 32 32
  let x := dirXor lo row
  let dd := BitVec.ofNat 32 d
  let s := if hi = 0 then qseed ^^^ (dd * 0x9E3779B9) else mix32 qseed hi dd
  if qmode = 0 then x else if qmode = 1 then x ^^^ s else scramble2 x s

/-! ### Instructions -/

/-- The stream is skewed: HTVAL of 0x0B (R282). -/
def State.skew (s : State) : Option Word :=
  let v := s.bank.qstep - BitVec.ofNat 64 (s.lpkg s.curL s.curP).sstep
  if v = 0 then none else some v

/-- A stream use: skew is tested before the instruction's other checks (R282). -/
def stream (i : Instr) (s : State) (body : State → Act) : Host.Outcome State Fault Refusal :=
  issue i s fun s => match s.skew with
    | some v => .trap 0x0B v
    | none => body s

/-- 64 points from QIDX on in dimension QDIM + x[rs1] (R280). -/
def qpoints (vd rs1 : Reg) (f : BitVec 32 → Nat) (s : State) : Act :=
  let b := s.bank
  let d := b.qdim.toNat + (s.rx rs1).toNat
  if 255 < d then operandFault (s.rx rs1)
  else
    let row := dirRow s.curTile.qrtab d
    .done (s.modBank fun b => b.wv vd (vbuild 32 64 fun i => f (point row b.qseed b.qmode (b.qidx + BitVec.ofNat 64 i) d)))

/-- FP32 of (p >> 8) × 2^−24 (R280). -/
def pointF (p : BitVec 32) : Nat :=
  let m := p.toNat / 256
  if m == 0 then 0 else (fround fp32 .rne 0 false m (-24)).1

def execQrv (vd rs1 : Reg) (s : State) : Host.Outcome State Fault Refusal := stream (.qrv vd rs1) s (qpoints vd rs1 fun p => p.toNat)
def execQrvf (vd rs1 : Reg) (s : State) : Host.Outcome State Fault Refusal := stream (.qrvf vd rs1) s (qpoints vd rs1 pointF)

def execQrx (rd rs1 rs2 : Reg) (s : State) : Host.Outcome State Fault Refusal :=
  stream (.qrx rd rs1 rs2) s fun s =>
    let d := (s.rx rs2).toNat
    if 255 < d then operandFault (s.rx rs2)
    else s.put rd ((point (dirRow s.curTile.qrtab d) s.bank.qseed s.bank.qmode (s.rx rs1) d).zeroExtend 64)

/-- Advance QIDX and QDRAW (R280). -/
def State.qadvance (s : State) (n : Word) : State := s.modBank fun b => { b with qidx := b.qidx + n, qdraw := b.qdraw + n }

def execQrnext (s : State) : Host.Outcome State Fault Refusal := stream .qrnext s fun s => .done (s.qadvance 64)
def execQrskip (rs1 : Reg) (s : State) : Host.Outcome State Fault Refusal := stream (.qrskip rs1) s fun s => .done (s.qadvance (s.rx rs1))

/-- QRTLD reads rows of the direction table from own TM; they are written at commit (R279). HTVAL of its 0x03 and
0x04 is the lowest failing offset (log entry 76). -/
def execQrtld (rs1 rs2 : Reg) (s : State) : Host.Outcome State Fault Refusal :=
  issue (.qrtld rs1 rs2) s fun s =>
    let a := s.rx rs1
    let w := s.rx rs2
    let f := bits w.toNat 0 16
    let c := bits w.toNat 16 16
    let r : Range := { lo := a.toNat, hi := a.toNat + 128 * c - 1 }
    if bits w.toNat 32 32 != 0 || c == 0 || 256 < f + c then operandFault w
    else if a.toNat % 4 != 0 then .trap 0x02 a
    else match s.tmCheck (fun _ o => !o.isEngine) [r] with
      | some (e, v) => .trap e (BitVec.ofNat 64 v)
      | none =>
        if (s.task s.cur).rangesBusy false [r] then .wait
        else .done (s.queue (.qrtld f (s.ownBytes s.curL s.curT s.curI a.toNat (128 * c))))

/-- PIPV writes 64 draws (R281). -/
def execPipv (vd : Reg) (s : State) : Host.Outcome State Fault Refusal :=
  stream (.pipv vd) s fun s =>
    let key := s.pipkey
    .done (s.modBank fun b => (b.wv vd (vbuild 32 64 fun i => (draw key (b.pipctr + BitVec.ofNat 64 i)).toNat)).drew 64)

end Sys2Proof.Machine
end

