-- ==== Sys2Proof/Machine/Effects.lean ====
section
/-!
DEFINITION. Commit-time effects in canonical key order: on TM and mailboxes (R54, R57, R83), on shadow and reduction pages
(R65, R80), the digest of a superstep (R322), conflicts and their log (R85, R325), and group results (R114, R115).
-/

namespace Sys2Proof.Machine

open Sys2Proof

/-! ### Key order (R54) -/

def Pend.lt (a b : Pend) : Bool :=
  decide (a.tile < b.tile) ||
    (a.tile == b.tile && (decide (a.task < b.task) || (a.task == b.task && decide (a.seq.toNat < b.seq.toNat))))

def Pend.sameKey (a b : Pend) : Bool := a.tile == b.tile && a.task == b.task && a.seq == b.seq

/-- Ascending key order; effects of one key keep the order in which they were queued. -/
def inOrder (ps : List Pend) : List Pend := sortBy Pend.lt ps

/-- Runs of effects with one key: one instruction each. -/
def byKey : List Pend → List (List Pend)
  | [] => []
  | p :: ps =>
    match byKey ps with
    | (q :: g) :: gs => if p.sameKey q then (p :: q :: g) :: gs else [p] :: (q :: g) :: gs
    | gs => [p] :: gs

/-! ### TM and mailbox (R57, R83) -/

/-- A remote atomic on a word (R243): the new word and the flags of RFADDS. -/
def AOp.apply (op : AOp) (w : Nat) (b : Word) : Nat × FFlags :=
  let sw := BitVec.ofNat 64 w
  match op with
  | .addw => ((w + b.toNat) % 2 ^ 32, 0)
  | .addd => ((w + b.toNat) % 2 ^ 64, 0)
  | .fadds => fvRound fp32 .rne 0 (fvAdd .rne (fd fp32 w) (fd fp32 (b.toNat % 2 ^ 32)))
  | .mind => ((if b.slt sw then b else sw).toNat, 0)
  | .maxd => ((if sw.slt b then b else sw).toNat, 0)
  | .ord => ((sw ||| b).toNat, 0)
  | .andd => ((sw &&& b).toNat, 0)
  | .xord => ((sw ^^^ b).toNat, 0)

/-- The header of a message (R83). -/
def msgHeader (p : Pend) (len : Nat) : List Byte :=
  natLe 4 p.tile ++ natLe 1 p.task ++ natLe 1 0 ++ natLe 2 len ++ natLe 4 (p.seq.toNat % 2 ^ 32) ++ natLe 4 0

/-- MBCOUNT (R82). -/
def Tile.mbCount (x : Tile) (size : Nat) : Nat := if size == 0 then 0 else (x.mbTail + size - x.mbHead) % size

/-- Append a message to the ring, or drop it (R83); with it, the runs written. -/
def Tile.append (x : Tile) (d : Desc) (p : Pend) (payload : List Byte) : Tile × List (Nat × Nat) :=
  let pad := (16 - payload.length % 16) % 16
  let bs := msgHeader p payload.length ++ payload ++ List.replicate pad 0
  let free := d.mbSize - 16 - x.mbCount d.mbSize
  if d.mbSize == 0 || free < bs.length then ({ x with mbLost := min (x.mbLost + 1) (2 ^ 32 - 1) }, [])
  else
    let first := min bs.length (d.mbSize - x.mbTail)
    let tm := (x.tm.write (d.mbBase + x.mbTail) (bs.take first)).write d.mbBase (bs.drop first)
    ({ x with tm := tm, mbTail := (x.mbTail + bs.length) % d.mbSize },
     if first < bs.length then [(d.mbBase, bs.length - first), (d.mbBase + x.mbTail, first)] else [(d.mbBase + x.mbTail, first)])

/-- Apply one effect to tile `t`; with it, the runs of TM it writes as offset and length. -/
def Tile.applyEff (x : Tile) (d : Desc) (t : Nat) (p : Pend) : Tile × List (Nat × Nat) :=
  match p.eff with
  | .tmWrite tgt _ a bs => if tgt == t then ({ x with tm := x.tm.write a bs }, [(a, bs.length)]) else (x, [])
  | .atomic tgt op a v =>
    if tgt == t then
      let r := op.apply (x.tm.nat a op.size) v
      ({ x with tm := x.tm.setNat a op.size r.1, cflags := x.cflags ||| r.2.zeroExtend 6 }, [(a, op.size)])
    else (x, [])
  | .msg tgt payload => if tgt == t then x.append d p payload else (x, [])
  | .mbHead v => if p.tile == t then ({ x with mbHead := v.toNat }, []) else (x, [])
  | _ => (x, [])

/-- Apply a superstep's effects to tile `t` in key order (R57). -/
def Tile.applyAll (x : Tile) (d : Desc) (t : Nat) (ps : List Pend) : Tile :=
  (inOrder ps).foldl (fun x p => (x.applyEff d t p).1) x

/-! ### Shadow pages and reduction pages (R65, R80) -/

/-- The sum of a reduction word: its committed value, as a copy of its page holds it, and every contribution, exactly. -/
def redTotal (m : Memory) (ppn : Nat) (va : Nat) (ps : List Pend) : Int :=
  ps.foldl (fun a p => match p.eff with
    | .redAdd w c _ => if w.toNat == va then a + c else a
    | _ => a) (sint 64 (m.nat (ppn * 65536 + va % 65536) 8))

/-- Saturate to ±(2^63 − 1) (R80). -/
def satSum (v : Int) : Int := max (-(2 ^ 63 - 1)) (min (2 ^ 63 - 1) v)

/-- Counters are not versioned (R81): those that share a page with written bytes go over to the shadow page as they stand. -/
def Launch.carryCounters (x : Launch) (h : Shadow) (m : Memory) : Memory :=
  let lo := max x.desc.ctrVa.toNat (h.vpn * 65536)
  let hi := min (x.desc.ctrVa.toNat + 8 * x.desc.ctrCount) ((h.vpn + 1) * 65536)
  if lo < hi then m.place (h.ppn * 65536 + lo % 65536) (hi - lo) (m.extract (h.old * 65536 + lo % 65536) (hi - lo)) else m

/-- Write a shadow page: plain writes in key order, the sums of its reduction words over what the page was copied with (R67), and the
counters in it. -/
def State.fillShadow (s : State) (l : Nat) (ps : List Pend) (h : Shadow) : State :=
  s.modPkg h.home fun x =>
    { x with hbm := (s.launch l).carryCounters h <| ps.foldl (fun m p => match p.eff with
        | .gWrite va bs => if va.toNat / 65536 == h.vpn then m.write (h.ppn * 65536 + va.toNat % 65536) bs else m
        | .redAdd va _ _ =>
          if va.toNat / 65536 == h.vpn then
            m.setNat (h.ppn * 65536 + va.toNat % 65536) 8 ((satSum (redTotal x.hbm h.ppn va.toNat ps)) % (2 ^ 64 : Int)).toNat
          else m
        | _ => m) x.hbm }

/-- Tiles whose CFLAGS get WO: contributors to a saturated word, or of an operand that was not finite (R80, R116), before the shadow
pages are written. -/
def State.woTiles (s : State) (l : Nat) : List Nat :=
  let x := s.launch l
  x.pends.filterMap fun p => match p.eff with
    | .redAdd va _ fin =>
      if !fin then some p.tile
      else match x.shadows.find? fun h => h.vpn == va.toNat / 65536 with
        | some h =>
          let v := redTotal (s.pkg h.home).hbm h.ppn va.toNat x.pends
          if satSum v != v then some p.tile else none
        | none => none
    | _ => none

/-! ### The digest (R322) -/

def digestC : Word := 0x9E3779B97F4A7C15

/-- The 8-byte words that some runs touch, ascending. -/
def wordsOf (runs : List (Nat × Nat)) : List Nat :=
  let sorted := sortBy (fun a b : Nat × Nat => decide (a.1 < b.1)) runs
  (sorted.foldl (fun (acc : List Nat × Nat) r =>
    if r.2 == 0 then acc
    else
      let lo := max (r.1 / 8) acc.2
      let hi := (r.1 + r.2 - 1) / 8 + 1
      (acc.1 ++ (List.range (hi - lo)).map fun j => 8 * (lo + j), max acc.2 hi)) ([], 0)).1

/-- Fold the effects on tile `t`'s TM, one instruction at a time. -/
def digestTm (d : Desc) (t : Nat) : List (List Pend) → Tile → Word → Word
  | [], _, h => h
  | g :: gs, x, h =>
    let r := g.foldl (fun (a : Tile × List (Nat × Nat)) p => let q := a.1.applyEff d t p; (q.1, a.2 ++ q.2)) (x, [])
    digestTm d t gs r.1 ((wordsOf r.2).foldl (fun h o => pmix (h ^^^ BitVec.ofNat 64 o ^^^ (BitVec.ofNat 64 (r.1.tm.nat o 8) * digestC))) h)

/-- The byte that some plain writes leave at an address; 0 where they write none. -/
def writtenByte (ps : List (Nat × List Byte)) (a : Nat) : Nat :=
  ps.foldl (fun v p => if p.1 ≤ a ∧ a < p.1 + p.2.length then (p.2.getD (a - p.1) 0).toNat else v) 0

/-- Fold one instruction's global writes, REDADD or BST. -/
def digestGlob (g : List Pend) (h : Word) : Word :=
  let ws := g.filterMap fun p => match p.eff with | .gWrite va bs => some (va.toNat, bs) | _ => none
  let h := (wordsOf (ws.map fun w => (w.1, w.2.length))).foldl (fun h a =>
    let v := (List.range 8).foldl (fun n j => n + writtenByte ws (a + j) * 256 ^ j) 0
    pmix (h ^^^ BitVec.ofNat 64 a ^^^ (BitVec.ofNat 64 v * digestC))) h
  g.foldl (fun h p => match p.eff with
    | .redAdd va c _ => pmix (h ^^^ va ^^^ (BitVec.ofInt 64 c * digestC))
    | .bst i v => pmix (h ^^^ (0xFFFF000000000000 + BitVec.ofNat 64 i) ^^^ (v * digestC))
    | _ => h) h

/-- D_t of a tile (R322). -/
def State.digestTile (s : State) (l t : Nat) : Word :=
  let x := s.launch l
  let gs := byKey (inOrder x.pends)
  let h := digestTm x.desc t gs (s.tile l t) 0
  gs.foldl (fun h g => if (g.any fun p => p.tile == t) then digestGlob g h else h) h

/-- The XOR of the digest terms of a package's tiles that are not retired. -/
def State.digestPkg (s : State) (l p : Nat) : Word :=
  (List.range (s.launch l).desc.ntile).foldl (fun d t =>
    if s.tilePkg l t == p && !(s.tile l t).retired then d ^^^ pmix (s.digestTile l t + BitVec.ofNat 64 t * 0xC2B2AE3D27D4EB4F) else d) 0

/-! ### Conflicts (R84, R85, R325, R391) -/

/-- What an instruction's effects touch on tile `t`: 4-byte words. -/
def touchTm (d : Desc) (t : Nat) : List Pend → Tile → List Touch
  | [], _ => []
  | p :: ps, x =>
    let r := x.applyEff d t p
    let op := match p.eff with | .tmWrite _ _ _ _ => false | _ => true
    (r.2.flatMap fun w => (List.range ((w.1 + w.2 + 3) / 4 - w.1 / 4)).map fun j =>
      { tile := p.tile, task := p.task, op := op, key := w.1 / 4 + j : Touch }) ++ touchTm d t ps r.1

/-- Plain writes of global bytes homed on a package. -/
def State.touchGlob (s : State) (l p : Nat) (ps : List Pend) : List Touch :=
  ps.flatMap fun e => match e.eff with
    | .gWrite va bs =>
      if (s.launch l).shadows.any fun h => h.home == p && h.vpn == va.toNat / 65536 then
        (List.range bs.length).map fun j => { tile := e.tile, task := e.task, op := false, key := va.toNat + j : Touch }
      else []
    | _ => []

/-- The lowest conflict of an address: its two lowest-keyed sources, when two sources meet there and one of them at least
writes plainly. Each source is recorded by its lowest-keyed touch of the address (R325; log entry 58). -/
def conflictAt (ts : List Touch) (k : Nat) : Option (Touch × Touch) :=
  match ts.filter fun t => t.key == k with
  | [] => none
  | a :: rest =>
    match rest.find? fun b => b.tile != a.tile || b.task != a.task with
    | none => none
    | some b =>
      let all := a :: rest
      let hit := all.any fun u => !u.op && all.any fun v => v.tile != u.tile || v.task != u.task
      if hit then some (a, b) else none

/-- Conflicting addresses of a list of touches in key order, ascending. -/
def conflictsOf (ts : List Touch) : List (Nat × Touch × Touch) :=
  (sortBy (fun a b => decide (a < b)) (dedup (ts.map (·.key)))).filterMap fun k => (conflictAt ts k).map fun c => (k, c.1, c.2)

/-- The conflicts that a package detects (R391): words of its tiles, then global bytes homed on it. -/
def State.conflictsOn (s : State) (l p : Nat) : List ConflRec :=
  let x := s.launch l
  if !x.desc.conftrap then []
  else
    let ps := inOrder x.pends
    let tm := (List.range x.desc.ntile).flatMap fun t =>
      if s.tilePkg l t == p then
        (conflictsOf (touchTm x.desc t ps (s.tile l t))).map fun c =>
          { addr := 0x10000000000 + t * 0x200000 + 4 * c.1, kind := 0, a := c.2.1, b := c.2.2 : ConflRec }
      else []
    tm ++ (conflictsOf (s.touchGlob l p ps)).map fun c => { addr := c.1, kind := 1, a := c.2.1, b := c.2.2 : ConflRec }

/-- The 32 bytes of a record (R325). -/
def ConflRec.bytes (r : ConflRec) (k : Nat) : List Byte :=
  natLe 8 k ++ natLe 8 r.addr ++ natLe 4 r.a.tile ++ natLe 1 r.a.task ++ natLe 1 r.kind ++ natLe 2 0 ++
    natLe 4 r.b.tile ++ natLe 1 r.b.task ++ natLe 1 (b01 r.b.op) ++ natLe 2 0

/-- Findings join those of the superstep; an address found again has its latest sources (R391). -/
def mergeFound (old new : List ConflRec) : List ConflRec :=
  (old.filter fun r => !new.any fun q => q.kind == r.kind && q.addr == r.addr) ++ new

/-- Write up to 64 records of a conflicting superstep and count them (R325, R137). The header's capacity and its number of
records are 8 bytes each; a launch's first record is record 0, whatever number the header holds; a record's bytes without a translation are
dropped, and the record counts all the same (log entry 58). -/
def State.logConflicts (s : State) (l : Nat) (rs : List ConflRec) : State :=
  let x := s.launch l
  let p := x.pkg
  let va := x.desc.conflVa.toNat
  let cap := leNat (s.launchRead l p va 8)
  let sorted := sortBy (fun a b : ConflRec => decide (a.kind < b.kind) || (a.kind == b.kind && decide (a.addr < b.addr))) rs
  let k := (x.onPkg (x.pkgs.headD p)).sstep
  (sorted.take 64).foldl (fun s r =>
    let n := (s.launch l).confl
    if n < cap then
      ((s.launchWrite l p (va + 0x40 + 32 * n) (r.bytes k)).launchWrite l p (va + 8) (natLe 8 (n + 1))).modLaunch l fun x => { x with confl := n + 1 }
    else s) s

/-! ### Group results (R114, R115, R248) -/

/-- Combine the contributions of one group and operation: the result and the flags for CFLAGS. -/
def combine (op : GOp) (vals : List Word) : Word × FFlags :=
  let fp := vals.map fun v => fd fp32 v.toNat
  let fold := fun (f : FVal → FVal → FVal × FFlags) =>
    match fp with
    | [] => (op.identity, (0 : FFlags))
    | a :: l =>
      let r := l.foldl (fun acc b => let q := f acc.1 b; (q.1, acc.2 ||| q.2)) (a, if a.isSig then FFlags.nv else 0)
      let c := fencode fp32 .rne 0 (match r.1 with | .nan _ => .nan false | v => v)
      (BitVec.ofNat 64 c.1, r.2)
  match op with
  | .addd => (vals.foldl (· + ·) 0, 0)
  | .mind => (vals.foldl (fun a b => if b.slt a then b else a) op.identity, 0)
  | .maxd => (vals.foldl (fun a b => if a.slt b then b else a) op.identity, 0)
  | .andd => (vals.foldl (· &&& ·) op.identity, 0)
  | .ord => (vals.foldl (· ||| ·) 0, 0)
  | .xord => (vals.foldl (· ^^^ ·) 0, 0)
  | .fadds => let r := fsumExact fp; (BitVec.ofNat 64 r.1, r.2)
  | .fmins => fold fvMin
  | .fmaxs => fold fvMax

def gops : List GOp := [.addd, .mind, .maxd, .andd, .ord, .xord, .fadds, .fmins, .fmaxs]

/-- The partials of some contributions: one for each group and operation that received any (R356). -/
def partialsOf (ps : List Pend) : List Partial :=
  let cs := ps.filterMap fun p => match p.eff with | .gred g op v => some ((g, op), v) | _ => none
  (dedup (cs.map (·.1))).map fun k => { grp := k.1, op := k.2, vals := (cs.filter fun c => c.1 == k).map (·.2) }

/-- Merge partials of several packages. -/
def mergePartials (l : List Partial) : List Partial :=
  (dedup (l.map fun p => (p.grp, p.op))).map fun k =>
    { grp := k.1, op := k.2, vals := l.flatMap fun p => if p.grp == k.1 && p.op == k.2 then p.vals else [] }

end Sys2Proof.Machine
end

