-- ==== Sys2Proof/Machine/Queues.lean ====
section
/-!
DEFINITION. Launch descriptors (R10), their validation (R11, R14), dependences (R34), and entry into a launch queue by a
host push (R361) or a committed LAUNCH (R31, R231).
-/

namespace Sys2Proof.Machine

open Sys2Proof

/-! ### The descriptor (R10) -/

/-- A descriptor's fields from its 256 bytes. -/
def descOf (bs : List Byte) : Desc :=
  let f := fun a n => leNat ((bs.drop a).take n)
  let w := fun a => BitVec.ofNat 64 (f a 8)
  { version := BitVec.ofNat 32 (f 0 4), flags := BitVec.ofNat 32 (f 4 4), entry := w 8, param := w 0x10, ntile := f 0x18 4,
    tasks := f 0x1C 1, accs := f 0x1D 1, pool := f 0x1E 1, minDies := f 0x1F 1, maxDies := f 0x20 1, npkg := f 0x21 1,
    dieMask := BitVec.ofNat 8 (f 0x22 1), zero23 := BitVec.ofNat 8 (f 0x23 1), ngroups := f 0x24 4, seed := w 0x28,
    groupVa := w 0x30, qrVa := w 0x38, ctxVa := w 0x40, altVa := w 0x48, flistVa := w 0x50, mbBase := f 0x58 4,
    mbSize := f 0x5C 4, deps := [w 0x60, w 0x68, w 0x70, w 0x78], digestVa := w 0x80, conflVa := w 0x88,
    domain := BitVec.ofNat 32 (f 0x90 4), abortLimit := f 0x94 4, ctrVa := w 0x98, ctrCount := f 0xA0 4,
    digestMode := f 0xA4 4, pkgVa := w 0xA8, complVa := w 0xB0, id := w 0xB8, zeroTail := f 0xC0 64 == 0 }

/-- The package list of a descriptor queued on package `p` (R10). -/
def State.pkgList (s : State) (p d : Nat) (x : Desc) : List Nat :=
  if x.npkg ≤ 1 ∧ x.pkgVa = 0 then [p]
  else (List.range x.npkg).map fun j => leNat (s.directRead p d (x.pkgVa.toNat + 4 * j) 4)

/-- The member list of group table entry `g` (R14). -/
def State.groupMembers (s : State) (p d : Nat) (x : Desc) (g : Nat) : List Nat :=
  let e := x.groupVa.toNat + 16 * g
  let c := leNat (s.directRead p d e 4)
  let va := leNat (s.directRead p d (e + 8) 8)
  (List.range c).map fun j => leNat (s.directRead p d (va + 4 * j) 4)

/-- The launch's groups (R14). -/
def State.groupTable (s : State) (p d : Nat) (x : Desc) : List (List Nat) := (List.range x.ngroups).map (s.groupMembers p d x)

/-! ### Validation (R11) -/

/-- Strictly ascending. -/
def ascending : List Nat → Bool
  | a :: b :: l => decide (a < b) && ascending (b :: l)
  | _ => true

/-- One group's entry is valid (R14). -/
def State.groupOk (s : State) (p d : Nat) (x : Desc) (g : Nat) : Bool :=
  let e := x.groupVa.toNat + 16 * g
  let c := leNat (s.directRead p d e 4)
  let va := leNat (s.directRead p d (e + 8) 8)
  decide (1 ≤ c) && decide (c ≤ x.ntile) && leNat (s.directRead p d (e + 4) 4) == 0 && va % 4 == 0 && s.readable p d va (4 * c) &&
    (let m := s.groupMembers p d x g; ascending m && m.all fun t => decide (t < x.ntile))

/-- The group table is valid: every entry is, and no tile is a member of more than four groups (R14). -/
def State.groupsOk (s : State) (p d : Nat) (x : Desc) : Bool :=
  (List.range x.ngroups).all (s.groupOk p d x) &&
    (let all := (s.groupTable p d x).flatten; (dedup all).all fun t => decide ((all.filter fun u => u == t).length ≤ 4))

/-- The group table's own bytes can be read (R14). -/
def State.groupsReadable (s : State) (p d : Nat) (x : Desc) : Bool :=
  x.groupVa.toNat % 16 == 0 && s.readable p d x.groupVa.toNat (16 * x.ngroups)

/-- Dies of a domain that a mask permits. -/
def State.permittedDies (s : State) (p d : Nat) (mask : BitVec 8) : Nat :=
  ((List.range 8).filter fun i => ((s.pkg p).dom d).cfg.dies.getLsbD i && mask.getLsbD i).length

/-- A page from which instructions may be fetched holds the address, and it is none of the launch's counters (R140). -/
def State.fetchable (s : State) (p d : Nat) (x : Desc) (va : Nat) : Bool :=
  !({ Launch.zero with desc := x }).inCounters va && s.readable p d va 4 && (match s.xlateDom p d va with | some g => !pteRed g.pte | none => false)

/-- A 64 KiB-aligned context area with a translation for every image (R10, R314). -/
def State.areaOk (s : State) (p d va ntile : Nat) : Bool := va != 0 && va % 65536 == 0 && s.readable p d va (ntile * 0x200000)

/-- The address fields of a descriptor (R10, R278, R323, R325). That the header of a conflict log must lie in a page that may be written
is the model's choice (log entry 58). -/
def State.addressesOk (s : State) (p d : Nat) (x : Desc) : Bool :=
  let c := x.ctxVa.toNat
  let a := x.altVa.toNat
  let n := x.ntile * 0x200000
  x.entry.toNat % 4 == 0 && s.fetchable p d x x.entry.toNat &&
    (x.ngroups == 0 || s.groupsReadable p d x) &&
    (x.qrVa == 0 || (x.qrVa.toNat % 128 == 0 && s.readable p d x.qrVa.toNat 32768)) &&
    c % 65536 == 0 && isGlob c && isGlob (c + n - 1) && a % 65536 == 0 && isGlob a && isGlob (a + n - 1) && (decide (c + n ≤ a) || decide (a + n ≤ c)) &&
    (x.flistVa == 0 || s.readable p d x.flistVa.toNat (8 * x.ntile)) &&
    (x.digestMode == 0 || s.writable p d x.digestVa.toNat (0x40 + 8 * leNat (s.directRead p d x.digestVa.toNat 8))) &&
    (!x.conftrap || s.writable p d x.conflVa.toNat 0x40) &&
    (x.ctrCount == 0 || (x.ctrVa.toNat % 65536 == 0 && s.readable p d x.ctrVa.toNat (8 * x.ctrCount))) &&
    ((x.npkg ≤ 1 && x.pkgVa == 0) || s.readable p d x.pkgVa.toNat (4 * x.npkg))

/-! ### Initial fetch lists (R240, R385) -/

/-- A byte that a CPGET of the domain may read, as the tables stand. -/
def State.sourceOk (s : State) (p d : Nat) (x : Desc) (a : Nat) : Bool :=
  match regionOf x.tmSize x.ntile a with
  | .glob => match s.xlateDom p d a with
    | some g => !pteSec g.pte && s.physOk g d
    | none => false
  | .devInfo _ => true
  | .l2p _ => true
  | _ => false

/-- An entry of an initial fetch list passes the checks of R238 and names no mailbox block (R240). -/
def State.initialEntryOk (s : State) (p d : Nat) (x : Desc) (bs : List Byte) : Bool :=
  let c := copyDescOf bs
  copyOk bs true && (c.probes { Launch.zero with desc := x }).all (s.sourceOk p d x) && (lowestOutside x.tmSize c.ranges).isNone &&
    (Tile.lowestBad { Tile.zero with ownCur := startOwners x } (fun _ o => o != Owner.ro) c.ranges).isNone

/-- The initial fetch list of logical tile `t`, as its entries' bytes; none where it breaks R238 (R240). -/
def State.initialList (s : State) (p d : Nat) (x : Desc) (t : Nat) : Option (List (List Byte)) :=
  let va := leNat (s.directRead p d (x.flistVa.toNat + 8 * t) 8)
  if va == 0 then some []
  else if va % 64 != 0 || !s.readable p d va 32 then none
  else
    let c := leNat (s.directRead p d va 4)
    if 1024 < c || !s.readable p d va (32 + 32 * c) then none
    else
      let es := (List.range c).map fun e => s.directRead p d (va + 32 + 32 * e) 32
      if es.all (s.initialEntryOk p d x) then some es else none

/-- The initial fetch lists of a descriptor, one for each logical tile that has one. -/
def State.readInitial (s : State) (p d : Nat) (x : Desc) : List (Nat × Option (List (List Byte))) :=
  if x.flistVa == 0 then []
  else ((List.range x.ntile).map fun t => (t, s.initialList p d x t)).filter fun e => e.2 != some []

/-- A launch that has ended but whose tiles are still held (R318). -/
def Launch.dead (x : Launch) : Bool := x.lp != [] && x.lp.all fun e => e.2.phase == .failed

/-- The queued, pre-empted or running launch with an id, on a package and domain (R10). -/
def State.liveId (s : State) (p d : Nat) (id : Word) : Option Launch :=
  (s.launches.find? fun e => e.2.pkg == p && e.2.dom == d && e.2.id == id && !e.2.dead).map (·.2)

/-- The package whose superstep number a launch reports: the first of its list. -/
def Launch.lead (x : Launch) : Nat := x.pkgs.headD x.pkg

/-- Where a dependence stands (R34). -/
inductive DepState where
  | met | failed | waiting
deriving DecidableEq, Repr

/-- A producer whose trigger condition held and that then ends with a status other than 0 counts as ended: R34's last case goes before
its second one (log entry 73). -/
def State.dep (s : State) (p d : Nat) (id : Word) : DepState :=
  if id == 0 then .met
  else match s.liveId p d id with
    | some x => if x.trigDone then .met else .waiting
    | none =>
      match ((s.pkg p).dom d).done.find? fun e => e.1 == id with
      | some e => if e.2 == 0 then .met else .failed
      | none => .met

def State.depsMet (s : State) (p d : Nat) (x : Desc) : Bool := x.deps.all fun i => s.dep p d i == .met
def State.depsFailed (s : State) (p d : Nat) (x : Desc) : Bool := x.deps.any fun i => s.dep p d i == .failed

/-- The package list is invalid, or has several packages and does not begin with the queuing package (R10, R30). -/
def badPkgList (p : Nat) (l : List Nat) : Bool :=
  dedup l != l || l.any (fun n => decide (192 ≤ n)) || (decide (1 < l.length) && l.headD p != p)

/-- The first status of R11 that applies to a descriptor for queue `q`; `host` says that its Domain field counts. A mailbox that is not made
of whole blocks, of which no row of R11 speaks, gives 0x94 (log entry 36). -/
def State.validate (s : State) (p d q : Nat) (x : Desc) (host : Bool) : Option Nat :=
  let f := x.flags.toNat
  let listKnown := (x.npkg ≤ 1 && x.pkgVa == 0) || s.readable p d x.pkgVa.toNat (4 * x.npkg)
  let list := if listKnown then s.pkgList p d x else [p]
  if x.version != 0x00010001 then some 0x90
  else if x.zero23 != 0 || !x.zeroTail || bits f 6 2 != 0 || bits f 11 21 != 0 || bits f 4 2 == 3 || 2 < x.digestMode ||
      65536 < x.ctrCount || (host && x.domain.toNat != d) || x.prio != q then some 0x91
  else if x.ntile == 0 || 2 ^ 19 ≤ x.ntile then some 0x92
  else if x.tasks == 0 || 4 < x.tasks || 16 < x.accs || 16 < x.tasks * x.accs then some 0x93
  else if x.pool == 0 || 8 < x.pool || x.mbBase % 2048 != 0 || x.mbSize % 2048 != 0 ||
      (x.mbSize != 0 && x.tmSize < x.mbBase + x.mbSize) then some 0x94
  else if x.minDies == 0 || 8 < x.maxDies || x.maxDies < x.minDies || x.npkg == 0 || 192 < x.npkg || (decide (1 < x.npkg) && x.pkgVa == 0) || badPkgList p list ||
      list.any (fun n => decide (s.permittedDies n d x.dieMask < x.minDies)) then some 0x95
  else if 256 < x.ngroups || x.ngroups != 0 && s.groupsReadable p d x && !s.groupsOk p d x then some 0x96
  else if !s.addressesOk p d x || (s.readInitial p d x).any (fun e => e.2.isNone) then some 0x97
  else if x.id == 0 || (s.liveId p d x.id).isSome then some 0x98
  else if s.depsFailed p d x then some 0x99
  else none

/-! ### Entry into a queue -/

/-- The record of a descriptor that is not run (R11, R362): its id completes, unless the refusal is 0x98 (R34). -/
def State.refuseDesc (s : State) (p d q : Nat) (x : Desc) (status : Nat) : State :=
  let s := s.complete p d q x.complVa.toNat x.id.toNat (2 ^ 64 - 1) 0 0 status 0
  if status == 0x98 then s else s.retain p d x.id status

/-- A queued launch from its descriptor. -/
def State.queuedLaunch (s : State) (p d q : Nat) (va : Word) (x : Desc) : Launch :=
  { Launch.zero with id := x.id, pkg := p, dom := d, queue := q, va := va, desc := x, pkgs := s.pkgList p d x,
                     groups := if x.ngroups == 0 then [] else s.groupTable p d x, initial := s.readInitial p d x, order := s.free }

/-- Put a launch at the tail of a queue. -/
def State.enter (s : State) (p d q : Nat) (x : Launch) : State :=
  let n := s.free + 1
  ((s.setLaunch n x).modQueue p d q fun y => { y with entries := y.entries ++ [n] }).tick

/-- The descriptor at a VA can be read, and its completion address is aligned and has a translation (R31, R361). -/
def State.descUsable (s : State) (p d va : Nat) : Bool :=
  va % 64 == 0 && s.readable p d va 256 &&
    (let c := leNat (s.directRead p d (va + 0xB0) 8); c % 32 == 0 && (s.xlateDom p d c).isSome)

/-- Entries occupied (R360). -/
def Queue.count (q : Queue) : Nat := q.entries.length + q.reserved

/-- A package takes pushes of a domain: bring-up is over and the domain is configured (R367, R368). -/
def State.open (s : State) (p d : Nat) : Bool := decide (8 ≤ (s.pkg p).boot.step) && (s.pkg p).hosts d

/-- A host push (R361). -/
def State.push (s : State) (p d q : Nat) (va : Word) : State :=
  if !s.open p d then s
  else if 64 ≤ (((s.pkg p).dom d).queue q).count then s.modQueue p d q fun y => { y with refused := y.refused + 1 }
  else if !s.descUsable p d va.toNat then
    (s.modQueue p d q fun y => { y with badva := y.badva + 1 }).logEvent p d 10 q 0 (natLe 8 va.toNat)
  else
    let x := descOf (s.directRead p d va.toNat 256)
    match s.validate p d q x true with
    | some st => s.refuseDesc p d q x st
    | none => s.enter p d q (s.queuedLaunch p d q va x)

def execQpush (pkg dom q : Nat) (va : Word) (s : State) : Host.Outcome State Fault Refusal :=
  event (okPkg pkg && okDom dom && okQueue q) s fun s => s.push pkg dom q va

/-- A committed LAUNCH of launch `l` fills its reserved entry (R31, R231): its descriptor and the tables are read as the commit leaves
them (R385). In a re-run from a restored checkpoint, a launch id that the launch had already enqueued since is dropped (R353); one whose
descriptor was refused counts as enqueued (log entry 97). -/
def State.commitLaunch (s : State) (l p : Nat) (va : Word) (q : Nat) : State :=
  let d := (s.launch l).dom
  let s := (s.modQueue p d q fun y => { y with reserved := y.reserved - 1 }).modLaunch l fun y => { y with outward := true }
  let v := s.asCommitted l p
  if !v.descUsable p d va.toNat then s.logEvent p d 10 q (s.launch l).id (natLe 8 va.toNat)
  else
    let x := descOf (v.directRead p d va.toNat 256)
    let s := s.modLaunch l fun y => { y with enqueued := y.enqueued ++ [x.id] }
    if (s.launch l).again.contains x.id then s.modLaunch l fun y => { y with again := y.again.erase x.id }
    else
      match v.validate p d q x false with
      | some st => s.refuseDesc p d q x st
      | none => s.enter p d q (v.queuedLaunch p d q va x)

end Sys2Proof.Machine
end

