-- ==== Sys2Proof/Machine/Traps.lean ====
section
/-!
DEFINITION. Delivering a class A trap (R290-R293), what firmware does with an escalated one (R298, R320, R326), and
firmware's writes of page tables (R62, R63).
-/

namespace Sys2Proof.Machine

open Sys2Proof

/-! ### Delivery (R290, R292, R293) -/

/-- A tile index that the pairing table names, when its valid bit is set and it is a usable tile of the cluster other than
the tile itself (R291). -/
def Pkg.pairTile (x : Pkg) (phys : Nat) (lo : Nat) : Option Nat :=
  let e := (Tab.get x.pairs 0 (phys % 2048)).toNat
  let b := phys / 16 * 16 + bits e lo 4
  if bitAt e (lo + 4) && b != phys && x.usable (physDie b) (physCluster b) (physTile b) then some (b % 2048) else none

/-- The handler slot that takes a trap of a tile: the buddy's, else the alternate's, whichever has room first; with the
ALT mark (R292). -/
def State.handlerFor (s : State) (p phys : Nat) : Option (Nat × Bool) :=
  let free := fun b => decide ((s.handler p b).queue.length < 4)
  match ((s.pkg p).pairTile phys 0).filter free with
  | some b => some (b, false)
  | none => (((s.pkg p).pairTile phys 8).filter free).map fun b => (b, true)

/-- ABORT of a launch has begun on the package of one of its tiles: its traps are cancelled (R299). -/
def State.trapsGone (s : State) (l t : Nat) : Bool := (s.lpkg l (s.tilePkg l t)).phase == .aborting

/-- Hand a frozen task's trap to a handler slot, or escalate it. -/
def State.deliver (s : State) (l t i : Nat) : State :=
  let k := Slot.thread l t i
  match (s.task k).status with
  | .frozen r =>
    if r.delivered || (s.task k).pend != [] || s.trapsGone l t then s
    else
      let p := s.tilePkg l t
      let va := ((s.pkg p).dom (s.launch l).dom).cfg.handlerVa
      match (if va == 0 then none else s.handlerFor p (s.tile l t).phys) with
      | none => s.modTask k fun x => { x with status := .escalated { r with delivered := true } }
      | some (b, alt) =>
        let s := s.modTask k fun x => { x with status := .frozen { r with delivered := true, alt := alt } }
        let h := s.handler p b
        (s.setHandler p b { h with queue := h.queue ++ [(k, alt)] }).handlerNext p b
  | _ => s

def execTrapDelivery (l t i : Nat) (s : State) : Host.Outcome State Fault Refusal :=
  event (decide (i < 4)) s fun s => s.deliver l t i

/-! ### Page tables (R62) -/

/-- Physical pages that firmware gives to tables of a domain: level 1 by VA[46:40], level 2 by VA[46:28] (a log entry names
this choice). -/
def level1Page (d va : Nat) : Nat := 0x9FFE00 + d * 128 + bits va 40 7
def level2Page (d va : Nat) : Nat := 0xA00000 + d * 524288 + bits va 28 19

/-- The table an entry points at; a missing one is made by firmware at `page`. -/
def tableAt (m : Memory) (a page : Nat) : Nat × Memory :=
  match tableNext (m.nat a 8) with
  | some n => (n, m)
  | none => (page * 65536, m.setNat a 8 (page * 65536 + 1))

/-- Write a level-2 entry of a domain's table. -/
def Memory.setEntry (m : Memory) (root d va : Nat) (pte : BitVec 64) : Memory :=
  let l1 := tableAt m (root + 8 * bits va 40 7) (level1Page d va)
  let l2 := tableAt l1.2 (l1.1 + 8 * bits va 28 12) (level2Page d va)
  l2.2.setNat (l2.1 + 8 * bits va 16 12) 8 pte.toNat

def State.setEntry (s : State) (p d va : Nat) (pte : BitVec 64) : State :=
  s.modPkg p fun x => { x with hbm := x.hbm.setEntry (x.dom d).cfg.root d va pte }

/-- A PTE change of firmware: a running launch of the domain sees it from its next superstep, so the entry it saw is
kept until then (R63). -/
def State.writePte (s : State) (p d va : Nat) (pte : BitVec 64) : State :=
  let old := BitVec.ofNat 64 (s.entryOf p d va)
  let s := s.mapLaunches fun x =>
    if x.dom == d && x.lp != [] && (Tab.find x.ptOld (p, va / 65536)).isNone then { x with ptOld := x.ptOld ++ [((p, va / 65536), old)] } else x
  s.setEntry p d va pte

def execPageTableWrite (pkg dom : Nat) (va : Word) (pte : BitVec 64) (s : State) : Host.Outcome State Fault Refusal :=
  event (okPkg pkg && okDom dom) s fun s => if (s.pkg pkg).hosts dom then s.writePte pkg dom va.toNat pte else s

/-! ### Escalated traps (R298) -/

/-- A writable PTE of a page as package `p` sees it. -/
def demandPte (p home ppn d : Nat) : BitVec 64 :=
  BitVec.ofNat 64 (3 + (if p == home then 0 else 8 + home % 256 * 16) + ppn % 2 ^ 36 * 65536 + d % 4 * 2 ^ 53)

/-- One package's entry of a page mapped on demand: from invalid to valid it is visible at once to every walk (R326); a valid
one stays, and any other change is seen from the next superstep (R63). -/
def State.demandEntry (s : State) (d va home ppn q : Nat) : State :=
  let e := s.entryOf q d va
  if !pteV e then
    (s.setEntry q d va (demandPte q home ppn d)).mapLaunches fun x =>
      if x.dom == d then { x with ptOld := x.ptOld.filter fun r => r.1 != (q, va / 65536) } else x
  else if pteOk e d then s
  else s.writePte q d va (demandPte q home ppn d)

/-- Map a page on demand, zeroed unless some package of the domain maps it already. -/
def State.mapOnDemand (s : State) (p d va home ppn : Nat) : State :=
  if (s.xlateDom p d va).isSome then s
  else
    let qs := (s.pkgs.map (·.1)).filter fun q => (s.pkg q).hosts d
    let s := if qs.any fun q => (s.xlateDom q d va).isSome then s
      else s.modPkg home fun x => { x with hbm := x.hbm.place (ppn * 65536) 65536 [] }
    qs.foldl (fun s q => s.demandEntry d va home ppn q) s

/-- Realign a stream by one superstep's advances (R320). -/
def Bank.realign (b : Bank) : Bank :=
  { b with qidx := b.qidx - b.qdrawprev, pipctr := b.pipctr - b.pipdrawprev, qstep := b.qstep - 1 }

/-- Firmware logs an escalated trap and gives it its outcome. The outcome is logged with the code of the HRET action it
amounts to (a log entry says so). -/
def State.escalation (s : State) (l t i : Nat) (act : EscAction) : State :=
  let k := Slot.thread l t i
  match (s.task k).status with
  | .escalated r =>
    let p := s.tilePkg l t
    let d := (s.launch l).dom
    let pc := (s.task k).bank.pc
    if s.trapsGone l t then s
    else match r.cause.toNat, act with
    | 0x05, .map home ppn =>
      if (s.pkg home).hosts d then resumeTask ((s.logTrap l t i r pc 0).mapOnDemand p d r.tval.toNat home ppn) k false
      else killTask (s.logTrap l t i r pc 2) l t i
    | 0x0B, _ => resumeTask ((s.logTrap l t i r pc 0).modTask k fun x => { x with bank := x.bank.realign }) k false
    | _, _ => killTask (s.logTrap l t i r pc 2) l t i
  | _ => s

def execEscalatedTrap (l t i : Nat) (act : EscAction) (s : State) : Host.Outcome State Fault Refusal :=
  event (decide (i < 4)) s fun s => s.escalation l t i act

end Sys2Proof.Machine
end

