-- ==== Sys2Proof/Machine/Context.lean ====
section
/-!
DEFINITION. The context image (R314-R317), saving and loading it (R310, R312, R318, R327), placement moves (R19, R300, R313),
and the events of a save and of a held launch.
-/

namespace Sys2Proof.Machine

open Sys2Proof

/-! ### Comparators travel with their logical tile (R300) -/

/-- The comparators of a tile that runs are those of its physical tile. -/
def State.stashTile (s : State) (l t : Nat) : State :=
  let x := s.tile l t
  if x.parked then s else s.setTile l t { x with cmps := s.cmp (physPkg x.phys) x.phys }

/-- Put the comparators of the tiles that run now back into the tiles. -/
def State.stashCmps (s : State) (l : Nat) : State :=
  (List.range (s.launch l).desc.ntile).foldl (fun s t => s.stashTile l t) s

/-- Load the comparators of the tiles that run now into their physical tiles. -/
def State.loadCmps (s : State) (l : Nat) : State :=
  (List.range (s.launch l).desc.ntile).foldl (fun s t =>
    let x := s.tile l t
    if x.parked then s else s.setCmp (physPkg x.phys) x.phys x.cmps) s

/-- Load the comparators of one tile into its physical tile, and let the tile run. -/
def State.unpark (s : State) (l t : Nat) : State :=
  let x := s.tile l t
  (s.setTile l t { x with parked := false }).setCmp (physPkg x.phys) x.phys x.cmps

/-! ### The image (R315-R317) -/

/-- The bytes of a memory moved up. -/
def Memory.up (m : Memory) (off : Nat) : Memory := m.map fun c => (c.1 + off, c.2)

/-- Offsets of a bank that belong to the stream record (R316). -/
def streamOffsets : List Nat := [0x2280, 0x22A0, 0x22B0, 0x22B8, 0x22D0]

/-- A bank in the image, its stream-record fields 0 (R315). -/
def bankImage (b : Bank) (key : Word) : Memory :=
  (List.range 1152).flatMap fun j => if streamOffsets.contains (8 * j) then [] else Memory.cells (8 * j) (natLe 8 (b.dword key (8 * j)).toNat)

/-- A task's stream record (R316). -/
def streamImage (b : Bank) : List Byte :=
  natLe 8 b.qstep.toNat ++ natLe 8 b.qidx.toNat ++ natLe 8 b.qdrawprev.toNat ++ natLe 8 b.pipctr.toNat ++ natLe 8 b.pipdrawprev.toNat ++ natLe 8 0

/-- A task's partition of the tag table from its first entry (R252, R315). -/
def tagImage (ts : List (Word × BitVec 63)) : List Byte :=
  ts.flatMap fun e => natLe 8 e.1.toNat ++ natLe 8 (e.2.toNat + 2 ^ 63)

/-- Ownership as 4-bit codes (R317). -/
def ownerCode : Owner → Nat
  | .own i => i % 4
  | .engine i => i % 4
  | .fetch i => i % 4
  | .ro => 5

def ownerImage : List Owner → List Byte
  | a :: b :: l => BitVec.ofNat 8 (ownerCode a + 16 * ownerCode b) :: ownerImage l
  | [a] => [BitVec.ofNat 8 (ownerCode a)]
  | [] => []

/-- Comparator PC and SVAL pairs (R300). -/
def cmpsImage (c : Cmps) : List Byte :=
  (List.range 4).flatMap fun n => natLe 8 (c.pc[n % 4]).toNat ++ natLe 8 (c.sval[n % 4]).toNat

/-- Tile state (R317): GRES results stand in the order of the tile's groups. -/
def tileState (x : Tile) (groups : List Nat) : List Byte :=
  let own := ownerImage x.own
  own ++ List.replicate (0x200 - own.length) 0 ++ natLe 8 x.mbHead ++ natLe 8 x.mbTail ++ natLe 8 x.mbLost ++ natLe 8 x.cflags.toNat ++
    natLe 8 x.cmps.hbrk.toNat ++ List.replicate 24 0 ++ cmpsImage x.cmps ++
    groups.flatMap fun g => gops.flatMap fun op => natLe 8 (x.gresOf g op).toNat

/-- Tasks of a tile that have exited. -/
def State.exitedMask (s : State) (l t : Nat) : Nat :=
  (List.range (s.launch l).desc.tasks).foldl (fun m i => m + b01 ((s.task (.thread l t i)).status == .retired) * 2 ^ i) 0

/-- Header bytes 0x00 to 0x3F, VALID set (R316). -/
def State.imageHeader (s : State) (l t : Nat) (alt : Bool) : List Byte :=
  let x := s.launch l
  let y := s.lpkg l (s.tilePkg l t)
  natLe 4 0x00010001 ++ natLe 4 (1 + 2 * b01 alt + 16 * (2 ^ x.desc.tasks - 1) + 256 * s.exitedMask l t) ++ natLe 4 (s.tile l t).phys ++
    natLe 4 t ++ natLe 8 y.sstep ++ natLe 8 x.id.toNat ++ natLe 4 x.desc.tmSize ++ natLe 4 0 ++ natLe 8 y.reexec ++ List.replicate 16 0

/-- The image of a logical tile (R315). -/
def State.image (s : State) (l t : Nat) (alt : Bool) : Memory :=
  let x := s.launch l
  let y := s.tile l t
  let n := x.desc.tasks
  let bank := fun i => (s.task (.thread l t i)).kept
  Memory.cells 0 (s.imageHeader l t alt) ++
    ((List.range n).flatMap fun i => Memory.cells (0x40 + 48 * i) (streamImage (bank i))) ++
    ((List.range n).flatMap fun i => (bankImage (bank i) (pipKey x.desc.seed t i)).up (0x100 + 0x2400 * i)) ++
    ((List.range n).flatMap fun i => Memory.cells (0x9100 + 16 * (1024 / n) * i) (tagImage (bank i).tags)) ++
    (y.qrtab.extract 0 0x8000).up 0xD100 ++ (y.tm.extract 0 x.desc.tmSize).up 0x16000 ++
    Memory.cells 0x1F6000 (tileState y (x.groupsOf t))

/-- The size of an image. -/
def imageSize : Nat := 0x1F7000

/-! ### Saving (R310, R318, R327) -/

/-- The area of an image: context or alternate (R314). -/
def Launch.area (x : Launch) (t : Nat) (alt : Bool) : Nat := (if alt then x.desc.altVa else x.desc.ctxVa).toNat + t * 0x200000

/-- The page that a CCE reaches at a VA for a launch: translated as the launch sees it (R63), and admitted by the region table (R366). -/
def State.ccePage (s : State) (l p va : Nat) : Option Page := (s.xlate l p va).filter fun g => s.physOk g (s.launch l).dom

/-- Write a sparse block of bytes at a VA for a launch, page by page; it ends at the first page that the CCE cannot reach, with `false`
(log entry 71). -/
def State.writeBlock (s : State) (l p va : Nat) (m : Memory) (size : Nat) : State × Bool :=
  (List.range ((size + 65535) / 65536)).foldl (fun (a : State × Bool) j =>
    if !a.2 then a
    else match a.1.ccePage l p (va + 65536 * j) with
      | some g =>
        let n := min 65536 (size - 65536 * j)
        ((a.1.modPkg g.home fun x => { x with hbm := x.hbm.place (g.ppn * 65536) n (m.extract (65536 * j) n) }).markDirty g.home g.ppn, true)
      | none => (a.1, false)) (s, true)

/-- Read a sparse block of bytes at a VA; nothing where the CCE cannot reach one of its pages (log entry 71). -/
def State.readBlock (s : State) (l p va size : Nat) : Option Memory :=
  ((List.range ((size + 65535) / 65536)).mapM fun j =>
    (s.ccePage l p (va + 65536 * j)).map fun g =>
      ((s.pkg g.home).hbm.extract (g.ppn * 65536) (min 65536 (size - 65536 * j))).up (65536 * j)).map List.flatten

/-- Clear VALID in the header of an image slot, whose page is dirty by it (R327, R380); `false` where the header cannot be reached. -/
def State.clearValid (s : State) (l p va : Nat) : State × Bool :=
  match s.ccePage l p (va + 4) with
  | some g =>
    let a := g.ppn * 65536 + (va + 4) % 65536
    ((s.modPkg g.home fun x => { x with hbm := x.hbm.write a [Memory.get x.hbm a &&& 0xFE] }).markDirty g.home g.ppn, true)
  | none => (s, false)

/-- A save begins: VALID is cleared in both image slots of a tile, the primary first; `false`, and nothing more, at a header that cannot
be reached (R318, R327). -/
def State.clearBoth (s : State) (l t : Nat) : State × Bool :=
  let x := s.launch l
  let p := s.tilePkg l t
  let r := s.clearValid l p (x.area t false)
  if r.2 then r.1.clearValid l p (x.area t true) else r

/-- Save a tile, with its comparators: VALID is cleared in both slots, then the image is written in one; `false` where a page
cannot be reached, and then the save stops and leaves no image valid that it wrote (R318, R327). -/
def State.saveTile (s : State) (l t : Nat) (alt : Bool) : State × Bool :=
  let x := s.launch l
  let p := s.tilePkg l t
  let c := (s.stashTile l t).clearBoth l t
  if !c.2 then c
  else
    let r := c.1.writeBlock l p (x.area t alt) (c.1.image l t alt) imageSize
    if r.2 then r else ((r.1.clearValid l p (x.area t alt)).1, false)

/-- Write the image of a parked tile. One that cannot be written is a failed save (R318). -/
def State.writeImage (s : State) (l t : Nat) : State :=
  let r := s.saveTile l t (s.tile l t).altSave
  if r.2 then r.1 else r.1.modLaunch l fun x => { x with fault := some 0x82, holdTiles := true }

/-- The tiles of a launch that wait on a package for their wave. -/
def State.waitingOn (s : State) (l p : Nat) : List Nat :=
  (List.range (s.launch l).desc.ntile).filter fun t => s.tilePkg l t == p && (s.tile l t).parked && !(s.tile l t).retired


/-- Saves begin of the tiles that satisfy a test (R310). -/
def State.beginSaves (s : State) (l : Nat) (f : Nat → Tile → Bool) : State :=
  (List.range (s.launch l).desc.ntile).foldl (fun s t => s.modTile l t fun x => if f t x then { x with saving := true, altSave := false } else x) s

/-! ### Loading (R312, R316, R327) -/

/-- A bank from its image and its stream record. -/
def bankOf (img : Memory) (i n : Nat) : Bank :=
  let base := 0x100 + 0x2400 * i
  let b := (List.range 1152).foldl (fun (b : Bank) j => b.setDword 0 true (8 * j) (BitVec.ofNat 64 (img.nat (base + 8 * j) 8))) Bank.zero
  let r := fun k => BitVec.ofNat 64 (img.nat (0x40 + 48 * i + 8 * k) 8)
  let q := 1024 / n
  let tags := (List.range q).filterMap fun e =>
    let a := 0x9100 + 16 * (q * i + e)
    let v := img.nat (a + 8) 8
    if 2 ^ 63 ≤ v then some (BitVec.ofNat 64 (img.nat a 8), BitVec.ofNat 63 v) else none
  { b with qstep := r 0, qidx := r 1, qdrawprev := r 2, pipctr := r 3, pipdrawprev := r 4, tags := tags }

def ownerOf (c : Nat) : Owner := if c == 5 then .ro else .own (c % 4)

/-- Load a tile's image: banks live and retained, stream records, tag table, direction table, TM and tile state. -/
def State.loadImage (s : State) (l t : Nat) (img : Memory) : State :=
  let x := s.launch l
  let y := s.tile l t
  let n := x.desc.tasks
  let nb := x.desc.tmSize / 2048
  let own := (List.range nb).map fun b => ownerOf (bits (img.nat (0x1F6000 + b / 2) 1) (4 * (b % 2)) 4)
  let w := fun a => img.nat (0x1F6000 + a) 8
  let c : Cmps := { hbrk := BitVec.ofNat 64 (w 0x220) &&& hbrkMask, pc := Vector.ofFn fun k => BitVec.ofNat 64 (w (0x240 + 16 * k.val)),
                    sval := Vector.ofFn fun k => BitVec.ofNat 64 (w (0x248 + 16 * k.val)) }
  let gres := ((x.groupsOf t).zipIdx).flatMap fun g => gops.map fun op => ((g.1, op.code), BitVec.ofNat 64 (w (0x280 + 72 * g.2 + 8 * op.code)))
  let word := img.nat 4 4
  let z : Tile := { Tile.zero with
    phys := y.phys, wave := y.wave, parked := y.parked, weight := y.weight, lastMat := y.lastMat, altSave := bitAt word 1,
    retired := bits word 8 n == 2 ^ n - 1, tm := img.extract 0x16000 x.desc.tmSize, own := own, ownCur := own,
    mbHead := w 0x200, mbTail := w 0x208, mbLost := w 0x210, cflags := BitVec.ofNat 6 (w 0x218), gres := gres,
    qrtab := img.extract 0xD100 0x8000, cmps := c }
  let s := s.setTile l t z
  (List.range n).foldl (fun s i =>
    let b := bankOf img i n
    s.setTask (.thread l t i) { Task.zero with bank := b, kept := b, status := if bitAt word (8 + i) then .retired else .running }) s

/-- The first bytes of an area of a tile, `size` of them, when all can be reached and the header shows VALID (R316). -/
def State.slotImage (s : State) (l t : Nat) (alt : Bool) (size : Nat) : Option Memory :=
  (s.readBlock l (s.tilePkg l t) ((s.launch l).area t alt) size).filter fun m => bitAt (m.nat 4 4) 0

/-- The valid image of a tile, the primary before the alternate (R327). An image of which a page cannot be reached is not valid (log
entry 71). -/
def State.validImage (s : State) (l t : Nat) : Option Memory := (s.slotImage l t false imageSize).orElse fun _ => s.slotImage l t true imageSize

/-- The header of some area of a tile shows VALID. -/
def State.hasImage (s : State) (l t : Nat) : Bool := (s.slotImage l t false 64).isSome || (s.slotImage l t true 64).isSome

/-- The images of a package's parked tiles follow their committed state: deltas addressed to a parked tile are applied to its
image at the commit (R19). One that is not valid stays so, for firmware to decide when the tile is loaded (R327); the first images of a
launch are written whatever the area held. -/
def State.refreshImages (s : State) (l p : Nat) : State :=
  ((s.waitingOn l p).filter fun t => (s.launch l).fresh || s.hasImage l t).foldl (fun s t => s.writeImage l t) s

/-- A tile of a list that is not retired and has no valid image. -/
def State.lacksImage (s : State) (l : Nat) (ts : List Nat) : Option Nat :=
  ts.find? fun t => !(s.tile l t).retired && (s.validImage l t).isNone

/-- Load the tiles of a list that are not retired from their images. -/
def State.loadTiles (s : State) (l : Nat) (ts : List Nat) : State :=
  (ts.filter fun t => !(s.tile l t).retired).foldl (fun s t => s.loadImage l t ((s.validImage l t).getD [])) s

/-- A tile without a valid image holds its launch until firmware decides, and is logged (R318, R327). -/
def State.holdLoad (s : State) (l t : Nat) : State :=
  let x := s.launch l
  (s.modLaunch l fun x => { x with moveHeld := true }).logEvent x.pkg x.dom 6 0x82 x.id (natLe 8 t)

/-- The images of the other waves' tiles are written: the tiles of one wave are loaded on a package and run, and the others are
parked (R19, R327). -/
def State.toWave (s : State) (l p w : Nat) : State :=
  let here := (List.range (s.launch l).desc.ntile).filter fun t => physPkg (s.tile l t).phys == p
  let s := here.foldl (fun s t =>
    if !(s.tile l t).parked && (s.tile l t).wave != w then (s.stashTile l t).modTile l t fun x => { x with parked := true } else s) s
  let come := here.filter fun t => (s.tile l t).parked && (s.tile l t).wave == w
  match s.lacksImage l come with
  | some t => s.holdLoad l t
  | none => come.foldl (fun s t => s.unpark l t) (s.loadTiles l come)

/-- A wave is to run on a package: the tiles of other waves that still occupy their places are saved and parked first (R19). -/
def State.startWave (s : State) (l p w : Nat) : State :=
  let s := s.beginSaves l fun _ x => physPkg x.phys == p && !x.parked && x.wave != w && !x.retired
  if s.savingOn l p then s else s.toWave l p w

/-- Load a placed launch from its images: SSTEP and REEXEC come from the header, and it enters STAGE (R312). A tile that
is retired and holds no image stays as it is. -/
def State.loadLaunch (s : State) (l : Nat) : State :=
  let x := s.launch l
  let live := (List.range x.desc.ntile).filter fun t => !(s.tile l t).retired
  match s.lacksImage l live with
  | some t => (s.setPhase l .held).logEvent x.pkg x.dom 6 0x82 x.id (natLe 8 t)
  | none =>
    let hdr := match live with
      | t :: _ => (s.validImage l t).getD []
      | [] => []
    let s := s.loadTiles l live
    let s := if live == [] then s else s.modLaunch l fun x =>
      { x with fresh := false, lp := x.lp.map fun e => (e.1, { e.2 with sstep := hdr.nat 0x10 8, reexec := hdr.nat 0x28 8 }) }
    (s.setPhase l .stage).loadCmps l

/-! ### Parking (R310, R33) -/

/-- A launch starts to park: every tile that is not retired has an image to write. -/
def State.beginPark (s : State) (l : Nat) : State :=
  let s := s.beginSaves l fun _ x => !x.retired
  (s.setPhase l .parking).modLaunch l fun x => { x with lp := x.lp.map fun e => (e.1, { e.2 with parkReq := false }) }

/-- Every image is written: the launch leaves its tiles and is held ahead of its queue, behind the launches of its level that parked
before it (R33; log entry 72). -/
def State.parked (s : State) (l : Nat) : State :=
  let x := s.launch l
  let s := s.stashCmps l
  let s := (List.range x.desc.ntile).foldl (fun s t => s.modTile l t fun y => { y with parked := true }) s
  let s := s.modQueue x.pkg x.dom x.desc.prio fun q => { q with ahead := q.ahead ++ [l] }
  ((s.setPhase l .parked).modLaunch l fun x => { x with dies := [], aged := 0, order := s.free }).tick

/-- No save of a tile is under way. -/
def State.allSaved (s : State) (l : Nat) : Bool := (List.range (s.launch l).desc.ntile).all fun t => !(s.tile l t).saving

/-- Finish the park when every image is written. -/
def State.checkParked (s : State) (l : Nat) : State := if s.allSaved l then s.parked l else s

/-! ### Moves (R21, R22, R313) -/

/-- Every tile that moves has been saved: the launch stands on its new dies, the L2P page is rewritten, and the tiles that come to
run on another physical tile, or run again, are loaded from their images (R18, R313). -/
def State.checkMoved (s : State) (l : Nat) : State :=
  match (s.launch l).move with
  | some m =>
    if !s.allSaved l || (s.launch l).moveHeld then s
    else
      let come := (List.range (s.launch l).desc.ntile).filter fun t =>
        (m.places.getD t (0, 0)).2 == 0 && ((s.tile l t).parked || (m.places.getD t (0, 0)).1 != (s.tile l t).phys)
      let s1 := (((s.stashCmps l).modLaunch l fun x => { x with dies := m.dies, move := none }).placeAt l 0 m.places)
      match s1.lacksImage l come with
      | some t => s.holdLoad l t
      | none => (s1.loadTiles l come).loadCmps l
  | none => s

/-- A launch is to stand on other places from this commit on: each tile that moves, or is to wait for a later wave, is parked with
its image written, as is one that waits without an image. -/
def State.beginMove (s : State) (l : Nat) (m : Move) : State :=
  let s := s.beginSaves l fun t x =>
    let q := m.places.getD t (0, 0)
    !x.retired && (q.1 != x.phys || (q.2 != 0 && !x.parked) || ((s.launch l).fresh && x.parked))
  (s.modLaunch l fun x => { x with move := some m }).checkMoved l

/-! ### The end of a save (R318, R327) -/

/-- What goes on once a tile of a package has been saved: the park, the move or the change of waves that it was part of. -/
def State.afterSave (s : State) (l p : Nat) : State :=
  let y := s.lpkg l p
  if y.phase == .parking then s.checkParked l
  else if (s.launch l).move.isSome then s.checkMoved l
  else if y.phase == .compute && !s.savingOn l p then (s.toWave l p y.wave).checkClosing l p
  else s

/-- A tile that neither area could take holds its launch until firmware decides. -/
def State.holdSave (s : State) (l p : Nat) : State :=
  if (s.lpkg l p).phase == .parking then s.setPhase l .held else s.modLaunch l fun x => { x with moveHeld := true }

/-- The save of one tile ends: the tile has left its physical tile, which is free once the image is valid (R310). A save has cleared
VALID in both slots before it wrote any other byte. -/
def State.saveEnds (s : State) (l t : Nat) (r : SaveResult) : State :=
  let x := s.launch l
  let y := s.tile l t
  let p := s.tilePkg l t
  if !y.saving || x.desc.ntile ≤ t || x.moveHeld || (s.lpkg l p).phase == .held then s
  else match r with
    | .written =>
      let q := s.saveTile l t y.altSave
      if q.2 then (q.1.modTile l t fun z => { z with saving := false, parked := true }).afterSave l p
      else (q.1.modLaunch l fun z => { z with holdTiles := true }).endLaunch l 0x82
    | .uncorrectable =>
      let q := s.clearBoth l t
      if !q.2 then (q.1.modLaunch l fun z => { z with holdTiles := true }).endLaunch l 0x82
      else if y.altSave then (q.1.holdSave l p).logEvent x.pkg x.dom 6 0x82 x.id (natLe 8 t)
      else (q.1.modTile l t fun z => { z with altSave := true }).logEvent x.pkg x.dom 6 0 x.id (natLe 8 t)

def execContextSaveComplete (l t : Nat) (result : SaveResult) (s : State) : Host.Outcome State Fault Refusal :=
  event true s fun s => s.saveEnds l t result

/-- Firmware retries the save or the load of a held launch, or ends it with 0x82 (R318, R327), and then its tiles are given up at once
(log entry 92). -/
def State.decideHeld (s : State) (l : Nat) (retry : Bool) : State :=
  let x := s.launch l
  let held := x.lp != [] && x.lp.all fun e => e.2.phase == .held
  if !held && !x.moveHeld then s
  else if !retry then s.endLaunch l 0x82
  else if held && s.allSaved l then s.loadLaunch l
  else
    let s := ((List.range x.desc.ntile).foldl (fun s t => s.modTile l t fun x => { x with altSave := x.altSave && !x.saving }) s).modLaunch l fun y => { y with moveHeld := false }
    if held then s.setPhase l .parking else x.pkgs.foldl (fun s p => s.afterSave l p) s

def execHeldLaunchDecision (l : Nat) (retry : Bool) (s : State) : Host.Outcome State Fault Refusal :=
  event true s fun s => s.decideHeld l retry

/-- The host releases the tiles of a launch that a failed save ended (R318). -/
def State.releaseTiles (s : State) (l : Nat) : State :=
  if (s.launch l).dead then
    { s with launches := Tab.del s.launches l, tiles := s.tiles.filter fun e => e.1.1 != l,
             tasks := s.tasks.filter fun e => slotLaunch e.1 != some l }
  else s

def execHeldTilesRelease (l : Nat) (s : State) : Host.Outcome State Fault Refusal :=
  event true s fun s => s.releaseTiles l

end Sys2Proof.Machine
end

