-- ==== Sys2Proof/Machine/Commit.lean ====
section
/-!
DEFINITION. The vote (R23, R108, R322), COMMIT (R26), reshape (R21, R45), the pages a commit flips and announces (R66, R68,
R350), ABORT (R303-R306, R324) and the end of STAGE (R239).
-/

namespace Sys2Proof.Machine

open Sys2Proof

/-! ### The star (R344, R345) -/

/-- Members of the star that host a domain and have not failed. -/
def State.starHosts (s : State) (d : Nat) : List Nat := s.star.members.filter fun q => (s.pkg q).hosts d && !(s.pkg q).failed

/-- The package is a member of the star, and another member hosts the domain. -/
def State.sharedDom (s : State) (p d : Nat) : Bool :=
  s.star.members.contains p && !(s.pkg p).failed && (s.starHosts d).any fun q => q != p

/-- LEN: the bytes of a payload (R346, R347, R356). A schedule of 1,024 entries, with two bytes for the eleven bits of each, fits one
frame (log entry 70). -/
def Payload.len : Payload → Nat
  | .pawn none => 0
  | .pawn (some e) => 8 + 2 * e.2.length
  | .vote _ _ _ v => 64 + 48 * v.partials.length
  | .voteMore _ _ _ ps => 24 + 48 * ps.length
  | .commit _ _ pages => 16 + 16 * pages.length
  | .notice pages => 16 + 16 * pages.length
  | .bcast _ _ es => 16 * es.length

/-- A frame that has not been sent yet: its visit and ACK come with its visit. -/
def frameOf (d p : Nat) (last : Bool) (pay : Payload) : Frame :=
  { dom := d, src := p, len := pay.len, visit := 0, ack := 0, last := last, rpt := false, pay := pay }

/-- Frames of one list, cut to what a frame holds, the first with a payload of its own; the last carries LAST (R345, R347). -/
def framesOf {α : Type} (d p : Nat) (n : Nat) (mk : List α → Bool → Payload) (l : List α) : List Frame :=
  let cs := match chunks n (l.length + 1) l with
    | [] => [[]]
    | c => c
  cs.zipIdx.map fun e => frameOf d p (e.2 + 1 == cs.length) (mk e.1 (e.2 == 0))

/-- Frames become ready on a package. -/
def State.addTx (s : State) (p : Nat) (fs : List Frame) : State := s.modPkg p fun x => { x with tx := x.tx ++ fs }

/-- Every package of a launch has sent its LAST COMMIT frame for commit(k) (R75). -/
def State.commitsSent (s : State) (l k : Nat) : Bool :=
  let waiting := fun (f : Frame) => match f.pay with
    | .commit l' k' _ => l' == l && k' == k
    | _ => false
  (s.launch l).lp.all (fun e => decide (k < e.2.sstep)) && !s.pkgs.any fun e => e.2.tx.any waiting

/-- A frame may be sent now (R75, R345). -/
def State.ready (s : State) (f : Frame) : Bool :=
  match f.pay with
  | .bcast l k _ => s.commitsSent l k
  | _ => true

/-- Frames held back become ready once they may be sent, after those that became ready before (R75, R345). -/
def State.releaseHeld (s : State) : State :=
  { s with pkgs := s.pkgs.map fun e =>
      let go := e.2.txHeld.filter s.ready
      if go == [] then e else (e.1, { e.2 with tx := e.2.tx ++ go, txHeld := e.2.txHeld.filter fun f => !s.ready f }) }

/-- Change every task slot of a launch. -/
def State.mapTasks (s : State) (l : Nat) (f : Task → Task) : State :=
  { s with tasks := s.tasks.map fun e => if slotLaunch e.1 == some l then (e.1, f e.2) else e }
/-- Change the superstep state of a launch on each of its packages. -/
def Launch.mapLp (x : Launch) (f : LPkg → LPkg) : Launch := { x with lp := x.lp.map fun e => (e.1, f e.2) }
/-- Drop the packets of a launch. -/
def State.dropPackets (s : State) (l : Nat) : State := { s with fabric := s.fabric.filter fun k => k.launch != l }

/-- The GFAAs of a launch that are in flight are applied at their homes, and their replies go nowhere (R343). -/
def State.landGfaas (s : State) (l : Nat) : State :=
  (s.fabric.filter fun k => k.launch == l && k.st == .inFlight).foldl (fun s k => match k.gfaa with
    | some g => (s.gfaaAt k.dst g.addr g.add).1
    | none => s) s

/-! ### The vote -/

/-- Every task, copy, matrix request and SFU request of a tile has finished. -/
def State.tileIdle (s : State) (l t : Nat) : Bool :=
  (s.tile l t).sfu == [] && (s.tile l t).copies == [] &&
    (List.range (s.launch l).desc.tasks).all fun i => let k := s.task (.thread l t i); k.pend == [] && k.mreq == []

/-- The logical tiles of a launch on a package. -/
def State.tilesOn (s : State) (l p : Nat) : List Nat := (List.range (s.launch l).desc.ntile).filter fun t => s.tilePkg l t == p

/-- CLOSING has drained on a package: no work of its tiles and no packet of it is left (R23, R339). -/
def State.drained (s : State) (l p : Nat) : Bool :=
  ((s.tilesOn l p).all fun t => s.tileIdle l t) && !s.fabric.any fun k => k.launch == l && k.src == p

/-- The flags of every task of the package that is neither retired nor killed (R108). -/
def State.voteFlags (s : State) (l p : Nat) : BitVec 5 :=
  (s.tasksOn l p).foldl (fun f e => if e.2.2.status == .retired || e.2.2.status == .killed then f else f ||| e.2.2.bank.tflags) 0

/-- A SYNC flag of any task of the package (R227). -/
def State.syncFlag (s : State) (l p i : Nat) : Bool :=
  (s.tasksOn l p).any fun e => match e.2.2.status with
    | .atSync _ f => f.getLsbD i
    | _ => false

/-- Tasks of the package that have exited, killed ones included (R24, R36). -/
def State.exitedOn (s : State) (l p : Nat) : Nat :=
  ((s.tasksOn l p).filter fun e => match e.2.2.status with
    | .retired => true
    | .atExit => true
    | .killed => true
    | _ => false).length

/-- The vote of a package (R23, R347). -/
def State.voteOf (s : State) (l p : Nat) : Vote :=
  let abrt := s.syncFlag l p 2
  { abort := abrt, cause := if abrt then 0x46 else 0, ckpt := s.syncFlag l p 0, reshape := s.syncFlag l p 1, flags := s.voteFlags l p,
    digest := s.digestPkg l p, exited := s.exitedOn l p, req := (s.lpkg l p).req,
    partials := partialsOf ((s.launch l).pends.filter fun e => s.tilePkg l e.tile == p) }

/-- When CLOSING has drained, conflicts raise 0x4A beside the 0x46 of an ABRT flag (R85, R227, R391), or else the package
votes. -/
def State.vote (s : State) (l p : Nat) : State :=
  let y := s.lpkg l p
  if y.phase != .closing || y.causes != [] || !s.drained l p then s
  else if s.conflictsOn l p != [] then
    let s := s.modLaunch l fun x => { x with found := mergeFound x.found (s.conflictsOn l p) }
    (if s.syncFlag l p 2 then s.raiseB l p 0x46 else s).raiseB l p 0x4A
  else s.modLpkg l p fun z => { z with phase := .voted, vote := some (s.voteOf l p) }

def execVote (l p : Nat) (s : State) : Host.Outcome State Fault Refusal :=
  event (okPkg p) s fun s => s.vote l p

/-- Several votes taken together (R349). -/
structure Tally where
  flags : BitVec 5
  digest : Word
  ckpt : Bool
  reshape : Bool
  partials : List Partial
deriving DecidableEq, Repr

def tally (vs : List Vote) : Tally :=
  { flags := vs.foldl (fun a v => a ||| v.flags) 0, digest := vs.foldl (fun a v => a ^^^ v.digest) 0, ckpt := vs.any (·.ckpt),
    reshape := vs.any (·.reshape), partials := mergePartials (vs.flatMap (·.partials)) }

/-! ### Commit: pages (R66, R350) -/

/-- A task of the package wrote a page in the superstep. -/
def State.wrote (s : State) (l p vpn : Nat) : Bool :=
  (s.launch l).pends.any fun e => s.tilePkg l e.tile == p && match e.eff with
    | .gWrite va _ => va.toNat / 65536 == vpn
    | .redAdd va _ _ => va.toNat / 65536 == vpn
    | _ => false

/-- The pages a package lists at a commit: those homed in it, and those homed outside the launch that its tasks wrote. -/
def State.listedPages (s : State) (l p : Nat) : List Shadow :=
  (s.launch l).shadows.filter fun h => h.home == p || (!(s.launch l).pkgs.contains h.home && s.wrote l p h.vpn)

/-- The physical page that a page's home table names. -/
def State.homePpn (s : State) (d : Nat) (h : Shadow) : Nat := ptePa (s.entryOf h.home d (h.vpn * 65536))

/-- The page flips in its home package's table, and is dirty (R66, R380). -/
def State.flipHome (s : State) (d : Nat) (h : Shadow) : State :=
  let now := s.homePpn d h
  (((s.setPte h.home d h.vpn h.ppn).repoint h.home d h.vpn h.old h.ppn).renameDirty h.home now h.ppn).markDirty h.home h.ppn

/-- Release the physical page `old` that a flip replaced, until the packages of `waiting` acknowledge; a REPLAY launch keeps
its launch-start version until it ends (R66, R68). -/
def State.releasePage (s : State) (l d : Nat) (h : Shadow) (old : Nat) (waiting : List (Nat × Option Nat)) : State :=
  let x := s.launch l
  let keep := x.desc.replay && !x.replay.any fun r => r.home == h.home && r.vpn == h.vpn
  let s := if keep then s.modLaunch l fun x => { x with replay := x.replay ++ [{ h with old := old }] } else s
  s.modPool h.home d fun q =>
    { q with releasing := q.releasing ++ [{ ppn := old, launch := l, kept := keep, nextCommit := false, waiting := waiting }] }

/-- The home flips a page of commit(k) and releases the one that its table named. A page that two packages list flips once, at the first
of their notices, whatever another launch has made current since (R350). -/
def State.flipRelease (s : State) (l k d : Nat) (h : Shadow) (waiting : List (Nat × Option Nat)) : State :=
  if !((s.pkg h.home).pool d).out.contains (h.ppn, l, k) then s
  else ((s.flipHome d h).modPool h.home d fun q => q.flip h.ppn).releasePage l d h (s.homePpn d h) waiting

/-- Queued broadcast writes of a superstep, in key order (R75). -/
def State.bsts (s : State) (l : Nat) : List (Nat × Word) :=
  (inOrder (s.launch l).pends).filterMap fun p => match p.eff with
    | .bst i v => some (i, v)
    | _ => none

/-- A commit needs COMMIT frames (R350). Where no other member of the star hosts the domain nobody would process one, and broadcast writes
are applied without frames (R75): none is sent there either (log entry 82). -/
def State.announces (s : State) (l p : Nat) : Bool :=
  let x := s.launch l
  decide (1 < x.pkgs.length) || (s.sharedDom p x.dom && (s.listedPages l p != [] || s.bsts l != []))

/-- The notices of a package of the star reach another package. -/
def State.hears (s : State) (p d q : Nat) : Bool := s.sharedDom p d && (s.starHosts d).contains q

/-- Flip and release the listed pages of a package (R26 step 1). A page homed outside the launch is flipped by its home when
it processes the notice; at once where the home is no member of the star that could (log entry 83). -/
def State.flipPages (s : State) (l p : Nat) : State :=
  let d := (s.launch l).dom
  let k := (s.lpkg l p).sstep
  let waiting := if s.sharedDom p d && s.announces l p then ((s.starHosts d).filter fun q => q != p).map fun q => (q, none) else []
  (s.listedPages l p).foldl (fun s h =>
    let s := s.modLaunch l fun x => { x with flipped := x.flipped ++ (if x.flipped.contains (h.home, h.vpn) then [] else [(h.home, h.vpn)]) }
    if h.home == p then s.flipRelease l k d h waiting
    else if s.hears p d h.home then s.flipPeer p d h
    else (s.flipPeer p d h).flipRelease l k d h waiting) s

/-! ### Commit: tiles and tasks (R26 steps 2 to 9) -/

/-- Flags that the rounding of group results raises on tile `t` (R108). -/
def Launch.gredFlags (x : Launch) (t : Nat) (ps : List Partial) : BitVec 6 :=
  ps.foldl (fun f q => if (x.groups.getD q.grp []).contains t then f ||| (combine q.op q.vals).2.zeroExtend 6 else f) 0

/-- GRES results of tile `t` (R249). -/
def Launch.gresOn (x : Launch) (t : Nat) (ps : List Partial) : List ((Nat × Nat) × Word) :=
  ps.filterMap fun q => if (x.groups.getD q.grp []).contains t then some ((q.grp, q.op.code), (combine q.op q.vals).1) else none

/-- GIVEs of a tile in key order; then the current ownership is the committed one (R26 step 3, R50, R51). -/
def Tile.giveAll (x : Tile) (t : Nat) (ps : List Pend) : Tile :=
  let own := (inOrder ps).foldl (fun (o : List Owner) p => match p.eff with
    | .give b dst => if p.tile == t then o.set b (.own dst) else o
    | _ => o) x.ownCur
  { x with own := own, ownCur := own }

/-- Pending direction-table rows (R279). -/
def Tile.tableLoads (x : Tile) (t : Nat) (ps : List Pend) : Tile :=
  { x with qrtab := (inOrder ps).foldl (fun m p => match p.eff with
      | .qrtld first bs => if p.tile == t then m.write (128 * first) bs else m
      | _ => m) x.qrtab }

/-- A tile at COMMIT: effects in key order, GIVEs, flags, cleared accumulators and SFU queue, direction table, results. -/
def State.commitTile (s : State) (l t : Nat) (ps : List Partial) (wo : List Nat) : State :=
  let x := s.launch l
  s.modTile l t fun y =>
    let y1 := (({ y with cflags := 0 }.applyAll x.desc t x.pends).giveAll t x.pends).tableLoads t x.pends
    { y1 with cflags := y1.cflags ||| (if y.retired then 0 else x.gredFlags t ps) ||| (if wo.contains t then 0x20 else 0),
              acc := [], sfu := [], gres := if y.retired then y1.gres else x.gresOn t ps }

/-- A task's live bank after the commit of superstep `k` (R26 step 9, R54, R106, R277). -/
def Bank.committed (b : Bank) (k : Nat) : Bank :=
  { b with qstep := BitVec.ofNat 64 (k + 1), qdrawprev := b.qdraw, qdraw := 0, pipdrawprev := b.pipdraw, pipdraw := 0, seq := 0 }

/-- A task at COMMIT: rd of its SYNC is written, and the live bank is copied to the retained one; a task that exited or was killed
retires (R8, R26). -/
def Task.commit (x : Task) (k : Nat) : Task :=
  match x.status with
  | .atSync rd _ =>
    let b := (x.bank.wx rd (BitVec.ofNat 64 (k % 2 ^ 32))).committed k
    { Task.zero with bank := b, kept := b, status := .running }
  | .atExit => let b := x.bank.committed k; { Task.zero with bank := b, kept := b }
  | .killed => let b := x.bank.committed k; { Task.zero with bank := b, kept := b }
  | _ => x

/-- The task slots of a tile. -/
def State.slotsOf (s : State) (l t : Nat) : List Slot := (List.range (s.launch l).desc.tasks).map fun i => .thread l t i

/-- Commit the tasks of a tile, and retire the tile when all of them have exited (R26 steps 4 and 8, R27). -/
def State.commitTasks (s : State) (l t k : Nat) : State :=
  let killed := (s.slotsOf l t).any fun q => (s.task q).status == .killed
  let s := (s.slotsOf l t).foldl (fun s q => s.modTask q fun x => x.commit k) s
  let s := s.modTile l t fun x => { x with retired := (s.slotsOf l t).all fun q => (s.task q).status == .retired }
  if killed then s.modLaunch l fun x => { x with killMark := true } else s

/-- Record TRIGs of the package's tasks (R26 step 5, R35). -/
def State.recordTrigs (s : State) (l p : Nat) : State :=
  let ts := ((s.launch l).pends.filter fun e => e.eff == .trig && s.tilePkg l e.tile == p).map fun e => (e.tile, e.task)
  s.modLaunch l fun x => { x with trigs := dedup (x.trigs ++ ts) }

/-- The trigger condition: every task has executed TRIG or exited (R35). -/
def State.trigHolds (s : State) (l : Nat) : Bool :=
  (List.range (s.launch l).desc.ntile).all fun t =>
    (List.range (s.launch l).desc.tasks).all fun i =>
      (s.launch l).trigs.contains (t, i) || (s.task (.thread l t i)).status == .retired

/-- Enqueue committed LAUNCHes in key order (R26 step 5). -/
def State.commitLaunches (s : State) (l p : Nat) : State :=
  (inOrder (s.launch l).pends).foldl (fun s e => match e.eff with
    | .launch va q => if s.tilePkg l e.tile == p then s.commitLaunch l p va q else s
    | _ => s) s

/-- The digest is folded into F, and in mode 1 written to the log (R322, R323). -/
def State.recordDigest (s : State) (l k : Nat) (d : Word) : State :=
  let x := s.launch l
  let va := x.desc.digestVa.toNat
  let s := s.modLaunch l fun x => { x with digest := pmix (x.digest ^^^ d) }
  if x.desc.digestMode == 1 && decide (k < leNat (s.launchRead l x.pkg va 8)) then
    (s.launchWrite l x.pkg (va + 0x40 + 8 * k) (natLe 8 d.toNat)).launchWrite l x.pkg (va + 8) (natLe 8 (k + 1))
  else s

/-- Apply broadcast writes to a package's table (R75). -/
def State.applyBst (s : State) (p d : Nat) (es : List (Nat × Word)) : State :=
  s.modDom p d fun x => { x with bt := es.foldl (fun b e => Tab.put b e.1 e.2) x.bt }

/-- The notice of a commit (R26 step 10, R68, R350), and the launch's broadcast writes, which its first package sends
(R75). -/
def State.announce (s : State) (l p k : Nat) (pages : List Shadow) (frames : Bool) : State :=
  let x := s.launch l
  let bs := s.bsts l
  let s := if frames then s.addTx p (framesOf x.dom p 252 (fun c _ => .commit l k c) pages) else s
  if p != x.lead || bs == [] then s
  else if s.sharedDom p x.dom then
    let fs := framesOf x.dom p 253 (fun c _ => .bcast l k c) bs
    (s.modPkg p fun y => { y with txHeld := y.txHeld ++ fs }).releaseHeld
  else s.applyBst p x.dom bs

/-- COMMIT on one package (R26), with the votes of the launch. The package's own vote stays until STAGE. -/
def State.commitPkg (s : State) (l p : Nat) (y : Tally) : State :=
  let x := s.launch l
  let k := (x.onPkg p).sstep
  let first := x.lp.all fun e => e.2.sstep == k && e.2.phase != .committed
  let ts := s.tilesOn l p
  let wo := if first then s.woTiles l else x.wo
  let s := if first then (x.shadows.foldl (fun s h => s.fillShadow l (inOrder x.pends) h) s).modLaunch l fun x => { x with wo := wo } else s
  let s := s.commitPassed l fun q => q == p || (p == x.lead && !x.pkgs.contains q)
  let pages := (s.listedPages l p).map fun h => { h with old := s.homePpn x.dom h }
  let frames := s.announces l p
  let s := s.flipPages l p
  let s := ts.foldl (fun s t => s.commitTile l t y.partials wo) s
  let s := ts.foldl (fun s t => s.commitTasks l t k) s
  let s := (s.recordTrigs l p).commitLaunches l p
  let s := if first then (s.recordDigest l k y.digest).modLaunch l fun x => { x with gflags := y.flags, serial := false, ckpt := y.ckpt, found := [], conflSeen := x.confl } else s
  let s := s.modLpkg l p fun z =>
    { z with phase := .committed, wave := 0, sstep := k + 1, reexec := 0, aborts := 0, causes := [], seen := [], lasts := [],
             notices := [], req := none, bt := ((s.pkg p).dom x.dom).bt }
  (s.announce l p k pages frames).refreshImages l p

/-! ### Reshape and re-placement (R21, R22, R45, R313) -/

/-- Dies of a package on which a launch stands, or will once a move under way has ended. -/
def Launch.diesOn (x : Launch) (p : Nat) : List Nat := (((x.move.map (·.dies)).getD x.dies).filter fun e => e.1 == p).map (·.2)

/-- A die that the launch leaves at the end of a move under way. -/
def Launch.vacates (x : Launch) (p d : Nat) : Bool := x.dies.contains (p, d) && !(x.diesOn p).contains d

/-- The dies that a demand withdraws from a package: from the highest number down, the minimum kept (R21, R45). -/
def Launch.givesBack (x : Launch) (p : Nat) : List Nat :=
  let held := sortBy (fun a b => decide (a < b)) (x.diesOn p)
  held.drop (max (held.length - x.demand) (min held.length x.desc.minDies))

/-- The dies of one package after a reshape: demanded dies are withdrawn; then dies that were free before are granted up to the
maximum, the lowest-numbered first as at a start (R16, R21; log entry 78). -/
def State.reshapePkg (s : State) (l p : Nat) (withdraw : Bool) : List (Nat × Nat) :=
  let x := s.launch l
  let keep := (x.diesOn p).filter fun d => !(withdraw && (x.givesBack p).contains d)
  (sortBy (fun a b => decide (a < b)) (keep ++ (s.freeDies p x.dom x.desc.dieMask).take (x.desc.maxDies - keep.length))).map fun d => (p, d)

/-- Two lists of dies name the same ones. -/
def sameDies (a b : List (Nat × Nat)) : Bool := a.all b.contains && b.all a.contains

/-- Some package holds fewer than the minimum dies (R22 step 3). -/
def Launch.belowMin (x : Launch) : Bool := x.pkgs.any fun p => decide ((x.diesOn p).length < x.desc.minDies)

/-- The reshape of a commit (R21, R22 step 3, R45). -/
def State.reshape (s : State) (l : Nat) (mark : Bool) : State :=
  let x := s.launch l
  let point := x.desc.elastic && mark
  let s1 := s.modLaunch l fun y => { y with demand := 0, demandFor := [], lapsed := if point then [] else dedup (y.lapsed ++ y.demandFor) }
  if point || (x.desc.elastic && x.belowMin) then
    let dies := x.pkgs.flatMap fun p => s.reshapePkg l p point
    if sameDies dies x.dies then s1 else s1.beginMove l { dies := dies, places := s1.placesOn l dies }
  else s1

/-! ### The launch after its last package committed -/

/-- What waits for the notices of a launch's commits: a trigger is met once every package has seen its commit's flips (R35), and
END, or a restart, comes once every page of the last commit has flipped (R36, R37, R308). -/
def State.checkEnd (s : State) (l : Nat) : State :=
  if s.flipsPending l then s
  else
    let x := s.launch l
    let s := if x.trigHeld && !x.trigDone then s.modLaunch l fun y => { y with trigDone := true } else s
    if x.lp != [] && (x.lp.all fun e => e.2.phase == .ended) && !(s.fabric.any fun k => k.launch == l) then
      match x.fault with
      | some _ => if s.framesPending l then s else s.restart l
      | none => s.finishLaunch l x.status
    else s

/-- END of every launch that waited for it. -/
def State.checkEnds (s : State) : State := s.launches.foldl (fun s e => s.checkEnd e.1) s

/-- The partner of a package for a launch's domain, when it works. -/
def State.partnerOf (s : State) (l p : Nat) : Option Nat := (Tab.find (s.pkg p).partner (s.launch l).dom).filter fun q => !(s.pkg q).failed

/-- A package's stream records, rewritten at its partner as a checkpoint starts, also of one that is then skipped (R319, R351;
log entry 59). -/
def State.saveStreams (s : State) (l p : Nat) : State :=
  match s.partnerOf l p with
  | none => s
  | some q =>
    let recs := (s.tilesOn l p).flatMap fun t => (s.slotsOf l t).map fun k =>
      let b := (s.task k).kept
      { slot := k, qstep := b.qstep, qidx := b.qidx, qdrawprev := b.qdrawprev, pipctr := b.pipctr, pipdrawprev := b.pipdrawprev : StreamRec }
    s.modPkg q fun x => { x with streams := (x.streams.filter fun r => !recs.any fun n => n.slot == r.slot) ++ recs }

/-- A committed package goes on once it has every notice: a checkpoint's pause, or STAGE (R350, R351). -/
def State.afterNotices (s : State) (l p : Nat) : State :=
  let x := s.launch l
  let y := x.onPkg p
  if y.phase != .committed then s
  else if 1 < x.pkgs.length ∧ !(x.pkgs.all fun q => y.notices.contains q) then s
  else s.modLpkg l p fun z => { z with phase := if x.ckpt then .paused else .stage, vote := none }

/-- Every package has committed: the superstep's work is over, and the launch meets a launch fault that waited, ends, reshapes or
goes on. -/
def State.finishCommit (s : State) (l : Nat) (mark : Bool) : State :=
  let x := s.launch l
  if x.lp.any fun e => e.2.phase != .committed then s
  else
    let s := (s.modLaunch l fun x =>
      { x with pends := [], shadows := [], decided := none, fetchNow := x.fetchNext, fetchNext := [], trigHeld := x.trigHeld || s.trigHolds l }).snapshot l
    match x.fault with
    | some c => s.launchFault l c
    | none =>
      if (List.range x.desc.ntile).all fun t => (s.tile l t).retired then (s.setPhase l .ended).checkEnd l
      else
        let s := s.checkEnd l
        let s := if x.ckpt then x.pkgs.foldl (fun s p => s.saveStreams l p) s else s
        let s := s.reshape l mark
        x.pkgs.foldl (fun s p => s.afterNotices l p) s

/-- A commit that some package has applied is applied on every other one, by the votes on which they agree (R349). -/
def State.settle (s : State) (l : Nat) : State :=
  let x := s.launch l
  if x.split then
    let y := tally (x.lp.filterMap fun e => e.2.vote)
    let late := x.lp.filter fun e => x.lp.any fun a => decide (e.2.sstep < a.2.sstep)
    (late.foldl (fun s e => s.commitPkg l e.1 y) s).finishCommit l y.reshape
  else s

/-! ### Abort (R303-R306, R324) -/

/-- The lowest-keyed ABORTREQ of a launch (R229). -/
def Launch.lowestReq (x : Launch) : Option (Nat × Nat × Word × BitVec 32) :=
  x.lp.foldl (fun a e => match e.2.req with
    | some r => some (lowerReq r a)
    | none => a) none

/-- An abort cause that counts (R288). -/
def counted (c : Nat) : Bool := c != 0x47 && c != 0x48

/-- A task at ABORT: its retained bank is its live bank (R303 step 7). -/
def Task.restore (x : Task) : Task :=
  if x.status == .retired then x else { Task.zero with bank := x.kept, kept := x.kept, status := .running }

/-- A tile at ABORT (R303 steps 2, 4 and 6). -/
def Tile.restore (x : Tile) : Tile := { x with ownCur := x.own, copies := [], sfu := [], acc := [] }

/-- The discard and restore of R303, and the re-run's STAGE. GFAAs in flight are applied before the counters are restored (R343). A move of
the last commit goes on; a change of waves does not, but that a save or load which waits for firmware's decision goes on waiting for it
(R318, R327). Packages that lost traffic must have their paths redrawn first (R288, R338). A re-run that was serialised is followed by a
serialised one until a commit, whatever aborted it (log entry 94). -/
def State.rollback (s : State) (l : Nat) (counts park : Bool) : State :=
  let s := s.cancelTraps fun k => slotLaunch k == some l
  let s := (s.releaseRes l fun _ => true).dropShadows l
  let held := (s.launch l).move.isSome || (s.launch l).moveHeld
  let s := ((s.landGfaas l).dropPackets l).mapTiles l (fun y => { y.restore with saving := y.saving && held }) |>.mapTasks l Task.restore
  let s := s.resetCounters l (s.launch l).snap
  s.modLaunch l fun x =>
    Launch.mapLp { x with pends := [], fetchNext := [], found := [], decided := none,
                          waitPaths := dedup (x.waitPaths ++ (x.lp.filter fun e => e.2.causes.contains 0x42).map (·.1)) } fun y =>
      { y with phase := .stage, wave := 0, reexec := y.reexec + 1, aborts := y.aborts + b01 counts, causes := [],
               parkReq := y.parkReq || park, vote := none, seen := [], lasts := [], req := none }

/-- ABORT of a launch whose every package has left the superstep: the records of the conflicts found in it (R325, R391), the
value of an ABORTREQ (R229, R365), the rollback, and what follows the reported cause. -/
def State.abort (s : State) (l : Nat) : State :=
  let x := s.launch l
  let causes := x.lp.flatMap fun e => e.2.causes
  let cause := (leastOf causes).getD 0
  let serial := x.serial
  let s := if x.found == [] then s else s.logConflicts l x.found
  let s := match x.lowestReq with
    | some r => s.logEvent x.pkg x.dom 2 cause x.id (natLe 8 r.1 ++ natLe 8 r.2.1 ++ natLe 8 r.2.2.1.toNat ++ natLe 8 r.2.2.2.toNat)
    | none => s
  let s := s.rollback l (counted cause) (causes.any fun c => !counted c)
  let tooMany := (s.launch l).lp.any fun e => decide (x.desc.limit < e.2.aborts)
  if causes.contains 0x43 then s.endLaunch l 0x43
  else if causes.contains 0x44 then s.endLaunch l 0x44
  else if cause == 0x45 && serial then s.launchFault l 0x81
  else if tooMany then s.launchFault l 0x81
  else if cause == 0x45 then s.modLaunch l fun x => { x with serial := true }
  else s

/-- A VOTE frame with abort set (R349). -/
def State.abortFrame (s : State) (l p : Nat) : Frame :=
  let x := s.launch l
  let y := x.onPkg p
  frameOf x.dom p true (.vote l y.sstep y.reexec
    { abort := true, cause := (leastOf y.causes).getD 0, ckpt := false, reshape := false, flags := 0, digest := 0, exited := 0, req := y.req,
      partials := [] })

/-- The launch aborts once every one of its packages is in ABORT. -/
def State.checkAbort (s : State) (l : Nat) : State :=
  let x := s.launch l
  if x.lp != [] && x.lp.all fun e => e.2.phase == .aborting then s.abort l else s

/-- Early abort (R25): each package with a cause enters ABORT; in a multi-package launch it sends its abort vote. -/
def State.earlyAbort (s : State) (l : Nat) : State :=
  let x := s.launch l
  let s := x.lp.foldl (fun s e =>
    if e.2.causes != [] && (e.2.phase == .compute || e.2.phase == .closing) then
      let s := if 1 < x.pkgs.length then s.addTx e.1 [s.abortFrame l e.1] else s
      s.enterAbort l e.1
    else s) s
  s.checkAbort l

def execEarlyAbort (l : Nat) (s : State) : Host.Outcome State Fault Refusal :=
  event true s fun s => s.earlyAbort l

/-! ### The ladder closes (R23, R324, R349) -/

/-- In digest mode 2, the superstep's digest differs from its entry (R323, R324). -/
def State.digestDiffers (s : State) (l k : Nat) (d : Word) : Bool :=
  let x := s.launch l
  let va := x.desc.digestVa.toNat
  x.desc.digestMode == 2 && decide (k < leNat (s.launchRead l x.pkg va 8)) &&
    leNat (s.launchRead l x.pkg (va + 0x40 + 8 * k) 8) != d.toNat

/-- A package leaves for ABORT with a cause found after its tasks reached the barrier, beside those it has. -/
def State.failVote (s : State) (l p c : Nat) : State :=
  (s.enterAbort l p).modLpkg l p fun z => { z with causes := if z.causes.contains c then z.causes else z.causes ++ [c] }

/-- D over every package of a launch (R322). -/
def State.digestAll (s : State) (l : Nat) : Word := (s.launch l).pkgs.foldl (fun d p => d ^^^ s.digestPkg l p) 0

/-- What a package decides once it has every vote of the superstep. The first package to decide computes D over every effect: each
package has by then received those that others sent it, also after its own vote (R322, R339; log entry 85). -/
def State.closeVotes (s : State) (l p : Nat) (vs : List Vote) : State :=
  let y := { tally vs with digest := (s.launch l).decided.getD (s.digestAll l) }
  let s := s.modLaunch l fun x => { x with decided := some y.digest }
  if s.digestDiffers l (s.lpkg l p).sstep y.digest then (s.failVote l p 0x45).checkAbort l
  else (s.commitPkg l p y).finishCommit l y.reshape

/-- The package ladder closes: a single-package launch decides, its digest compared with an abort vote too (R227, R323); another
sends its vote, whose later frames carry partials only (R356). -/
def State.ladderClose (s : State) (l p : Nat) : State :=
  let x := s.launch l
  let y := x.onPkg p
  match y.phase, y.vote with
  | .voted, some v =>
    if x.pkgs.length ≤ 1 then
      if v.abort then
        let s := if s.digestDiffers l y.sstep v.digest then s.failVote l p 0x45 else s
        (s.failVote l p 0x46).checkAbort l
      else s.closeVotes l p [v]
    else
      let s := s.addTx p (framesOf x.dom p 83 (fun c first =>
        if first then .vote l y.sstep y.reexec { v with partials := c } else .voteMore l y.sstep y.reexec c) v.partials)
      if v.abort then (s.failVote l p 0x46).checkAbort l else s.modLpkg l p fun z => { z with phase := .sent }
  | _, _ => s

def execLadderClose (l p : Nat) (s : State) : Host.Outcome State Fault Refusal :=
  event (okPkg p) s fun s => s.ladderClose l p

/-- A package's part of the running wave has ended, and a later wave waits (R19). -/
def State.waveDoneOn (s : State) (l p : Nat) : Bool :=
  let y := s.lpkg l p
  y.phase == .compute && y.causes == [] && decide (y.wave + 1 < s.waves l) && !s.savingOn l p &&
    ((s.tilesOn l p).filter fun t => (s.tile l t).wave == y.wave).all fun t =>
      s.tileIdle l t && (s.slotsOf l t).all fun k => (s.task k).status.atBarrier

/-- The running wave of a launch has ended on every package (R17, R19). -/
def State.waveDone (s : State) (l : Nat) : Bool := (s.launch l).lp != [] && (s.launch l).pkgs.all fun p => s.waveDoneOn l p

/-- The wave is parked with its deltas, and the next one is unparked (R19). -/
def State.waveEnd (s : State) (l : Nat) : State :=
  if s.waveDone l then
    (s.launch l).pkgs.foldl (fun s p =>
      let w := (s.lpkg l p).wave + 1
      ((s.modLpkg l p fun z => { z with wave := w }).startWave l p w).checkClosing l p) s
  else s

def execWaveEnd (l : Nat) (s : State) : Host.Outcome State Fault Refusal :=
  event true s fun s => s.waveEnd l

/-! ### STAGE (R239, R240, R81) -/

/-- An entry of a fetch list can be read through the present translations (R239). -/
def State.entryReadable (s : State) (l p : Nat) (c : CopyDesc) : Bool :=
  (c.probes (s.launch l)).all fun a => s.permitted l p .copySrc a

/-- Write one entry's rows into committed TM; a line that no path leads to is a lost packet (R336, R338). -/
def State.stageEntry (s : State) (l t : Nat) (c : CopyDesc) : State :=
  let p := s.tilePkg l t
  let s := s.voteLost l p ((List.range c.rows).flatMap fun r => (lineRequests (c.rowAddr r) c.bytes).map (·.1))
  s.modTile l t fun x =>
    { x with tm := (List.range c.rows).foldl (fun m r => m.write (c.rowRange r).lo (s.copyRow l p .get c r)) x.tm }

/-- Stage the lists in key order; `false` when a page can no longer be read, and nothing more is written. -/
def State.stageLists (s : State) (l : Nat) : State × Bool :=
  let fs := sortBy (fun a b : Fetch => decide (a.tile < b.tile) || (a.tile == b.tile && decide (a.task < b.task))) (s.launch l).fetchNow
  (fs.flatMap fun f => f.entries.map fun e => (f.tile, e)).foldl (fun (a : State × Bool) e =>
    if a.2 && a.1.entryReadable l (a.1.tilePkg l e.1) e.2 then (a.1.stageEntry l e.1 e.2, true) else (a.1, false)) (s, true)

/-- Staged targets return to their owner (R51). -/
def Owner.staged : Owner → Owner
  | .fetch i => .own i
  | o => o

/-- STAGE can end: every tile that moves has moved, no save or load waits for firmware, the paths are redrawn, no package's power fails, and each package has reached the
pawn position at which the launch started (R77, R313, R338, R377). A tile that moves is thus saved and loaded before the fetch lists are
staged (log entry 93). -/
def State.stageReady (s : State) (l : Nat) : Bool :=
  let x := s.launch l
  x.lp != [] && x.waitPaths == [] && x.move.isNone && !x.moveHeld && s.allSaved l && x.lp.all fun e =>
    e.2.phase == .stage && (s.pkg e.1).drain == .none && (decide (x.startAck ≤ (s.pkg e.1).ack) || !s.star.members.contains e.1)

/-- STAGE ends: the fetch lists are in committed TM, and in the images of parked tiles; the launch faults, aborts by a cause of STAGE,
parks, or computes. Changes of PTEs are seen from here on, also by the re-run of a superstep (R326; log entry 81), and the counters'
snapshot is taken of the pages that are seen now (R81). -/
def State.stageEnd (s : State) (l : Nat) : State :=
  let x := s.launch l
  if !s.stageReady l then s
  else
    let s := (s.modLaunch l fun y => { y with ptOld := [] }).snapshot l
    let r := s.stageLists l
    if !r.2 then r.1.launchFault l 0x86
    else
      let s := r.1.mapTiles l fun y => { y with own := y.own.map Owner.staged, ownCur := y.ownCur.map Owner.staged }
      let s := s.modLaunch l fun y => { y with fetchNow := [] }
      if (s.launch l).lp.any fun e => e.2.causes != [] then (s.setPhase l .compute).earlyAbort l
      else if x.lp.any fun e => e.2.parkReq || (s.pkg e.1).parksAll then s.beginPark l
      else
        let s := x.pkgs.foldl (fun s p => s.refreshImages l p) s
        match (s.launch l).fault with
        | some c => s.launchFault l c
        | none =>
          let s := s.modLaunch l fun y => { y.mapLp fun z => { z with phase := .compute, wave := 0 } with fresh := false }
          x.pkgs.foldl (fun s p => (s.startWave l p 0).checkClosing l p) s

def execStageEnd (l : Nat) (s : State) : Host.Outcome State Fault Refusal :=
  event true s fun s => s.stageEnd l

end Sys2Proof.Machine
end

