-- ==== Sys2Proof/Machine/Recovery.lean ====
section
/-!
DEFINITION. SRAM and HBM errors and residue mismatches (R87, R307, R341, R390), and the end of a checkpoint's pause (R319, R351).
-/

namespace Sys2Proof.Machine

open Sys2Proof

/-- An error in committed state: rebuilt with no event, or launch fault 0x80 (R87). -/
def State.committedError (s : State) (l : Nat) (rebuilt : Bool) : State := if rebuilt then s else s.launchFault l 0x80

/-- An uncorrectable error in a buffer or live bank of a superstep: class B 0x40 while the superstep is open, absorbed in ABORT,
and an error in committed state once it is decided (R87, R390). -/
def State.workError (s : State) (l p : Nat) (rebuilt : Bool) : State :=
  match s.outcome l p with
  | .open => s.raiseB l p 0x40
  | .decided => s.committedError l rebuilt
  | .aborting => s
  | .none => s

/-- A line of HBM whose integrity tag failed and was read once more (R341): nothing where the second read passed; in a shadow
page that the launch is writing as an error in an open superstep's buffers, in any other page as one in committed state. -/
def State.hbmError (s : State) (l p home ppn : Nat) (second : Bool) : State :=
  if second then s
  else if (s.launch l).shadows.any fun h => h.home == home && h.ppn == ppn then s.workError l p false
  else s.committedError l false

/-- An error in an SRAM on a tile of a launch, rebuilt or not (R87, R390), or in a line of HBM that the tile read (R341). -/
def State.sramError (s : State) (l t : Nat) (place : SramPlace) (rebuilt : Bool) : State :=
  let p := s.tilePkg l t
  if s.outcome l p == .none || (s.launch l).desc.ntile ≤ t then s
  else match place with
    | .committedTm => s.committedError l rebuilt
    | .retainedBank => s.committedError l rebuilt
    | .dieCache => s
    | .instrCache => s
    | .accumulators => if s.outcome l p == .open then s.raiseB l p 0x40 else s
    | .deltaPool => s.workError l p rebuilt
    | .liveBank => s.workError l p rebuilt
    | .inFlight => s.workError l p rebuilt
    | .hbmLine home ppn => s.hbmError l p home ppn rebuilt

def execSramError (l t : Nat) (place : SramPlace) (rebuilt : Bool) (s : State) : Host.Outcome State Fault Refusal :=
  event true s fun s => s.sramError l t place rebuilt

/-- A residue or parity-prediction mismatch (R307): 0x41 while the superstep is open; in a commit-time operation, an
uncorrectable error in the word it writes (R390). -/
def State.residueMismatch (s : State) (l t : Nat) : State :=
  let p := s.tilePkg l t
  match (if (s.launch l).desc.ntile ≤ t then Outcome.none else s.outcome l p) with
  | .open => s.raiseB l p 0x41
  | .decided => s.committedError l false
  | _ => s

def execResidueMismatch (l t : Nat) (s : State) : Host.Outcome State Fault Refusal :=
  event true s fun s => s.residueMismatch l t

/-! ### Checkpoints (R351) -/

/-- TM blocks in which two memories differ. -/
def changedBlocks (a b : Memory) (tmSize : Nat) : List Nat :=
  (List.range (tmSize / 2048)).filter fun n => a.extract (2048 * n) 2048 != b.extract (2048 * n) 2048

/-- The latest complete set of a package of a launch. -/
def Pkg.lastSet (x : Pkg) (l owner : Nat) : Option CkptSet := x.ckpts.find? fun c => c.launch == l && c.owner == owner && c.complete

/-- The set a package writes at a checkpoint, in the place that its partner's latest set does not take. -/
def State.ckptSet (s : State) (l p q : Nat) : CkptSet :=
  let x := s.launch l
  { launch := l, owner := p, slot := (((s.pkg q).lastSet l p).map fun c => 1 - c.slot).getD 0,
    sstep := (x.onPkg p).sstep, complete := true, tiles := (s.tilesOn l p).map fun t => (t, s.tile l t),
    tasks := (s.tilesOn l p).flatMap fun t => (s.slotsOf l t).map fun k => (k, s.task k),
    pages := (x.flipped.filter fun f => f.1 == p).filterMap fun f =>
      (s.xlate l p (f.2 * 65536)).map fun g => (f.2, (s.pkg g.home).hbm.extract (g.ppn * 65536) 65536),
    counters := if x.desc.ctrCount == 0 then [] else
      Memory.cells x.desc.ctrVa.toNat (s.homeRead l x.pkg x.desc.ctrVa.toNat (8 * x.desc.ctrCount)),
    fetch := x.fetchNow.filter fun f => s.tilePkg l f.tile == p, gflags := x.gflags, digest := x.digest, killMark := x.killMark }

/-- TM blocks of a tile that changed since the previous checkpoint. -/
def State.ckptBlocks (s : State) (l p q t : Nat) (m : Memory) : List Nat :=
  changedBlocks m (match (s.pkg q).lastSet l p with
    | some c => (Tab.get c.tiles Tile.zero t).tm
    | none => []) (s.launch l).desc.tmSize

/-- Dirty bytes of a package's checkpoint (R351). -/
def State.ckptBytes (s : State) (l p q : Nat) (c : CkptSet) : Nat :=
  65536 * c.pages.length + c.tiles.foldl (fun n e => n + 94208 + 2048 * (s.ckptBlocks l p q e.1 e.2.tm).length) 0

/-- The pages of the partner's reserved storage that a set writes (R351, R380): of each tile's image those of its header, banks,
tags, direction table, tile state and changed TM blocks, then the flipped pages and the counter region. Their numbers are
the model's (log entry 56). -/
def State.ckptPages (s : State) (l p q : Nat) (c : CkptSet) : List Nat :=
  let base := 2 ^ 36 + (c.slot + 2 * (p + 2048 * l)) * 2 ^ 24
  let block := fun b => [(0x16000 + 2048 * b) / 65536]
  let tile := fun t m => dedup ([0, 1, 31] ++ (s.ckptBlocks l p q t m).flatMap block)
  ((c.tiles.zipIdx).flatMap fun e => (tile e.1.1 e.1.2.tm).map fun j => base + 32 * e.2 + j) ++
    (List.range c.pages.length).map (fun j => base + 2 ^ 17 + j) ++ (if c.counters == [] then [] else [base + 2 ^ 23])

/-- Every package's partner can hold its set; one that has been declared failed cannot (log entry 44). -/
def State.ckptFits (s : State) (l : Nat) : Bool :=
  (s.launch l).pkgs.all fun p => match s.partnerOf l p with
    | some q => Config.ckptRoom (s.ckptBytes l p q (s.ckptSet l p q))
    | none => false

/-- A partner keeps two sets of each package of a launch, the newest first; pages not flipped again come over from the set
before. -/
def keepSets (cs : List CkptSet) (c : CkptSet) : List CkptSet :=
  let old := match cs.find? fun d => d.launch == c.launch && d.owner == c.owner with
    | some d => d.pages.filter fun g => !c.pages.any fun h => h.1 == g.1
    | none => []
  { c with pages := c.pages ++ old } :: (cs.filter fun d => d.launch == c.launch && d.owner == c.owner).take 1 ++ cs.filter fun d => !(d.launch == c.launch && d.owner == c.owner)

/-- A package's set is complete at its partner, whose storage pages it has made dirty (R351, R380). -/
def State.writeSet (s : State) (l p : Nat) : State :=
  match s.partnerOf l p with
  | some q =>
    let c := s.ckptSet l p q
    ((s.ckptPages l p q c).foldl (fun s n => s.markDirty q n) s).modPkg q fun y => { y with ckpts := keepSets y.ckpts c }
  | none => s

/-- The pause ends on every package: each set becomes complete, with the comparators of its tiles (R300), or the checkpoint
is skipped and logged; the launch goes on. -/
def State.pauseEnd (s : State) (l : Nat) : State :=
  let x := s.launch l
  if x.lp == [] || x.lp.any fun e => e.2.phase != .paused then s
  else
    let k := (x.onPkg x.lead).sstep - 1
    let s := s.stashCmps l
    let s1 := if s.ckptFits l then
        (x.pkgs.foldl (fun s p => s.writeSet l p) s).modLaunch l fun y => { y with flipped := [], enqueued := [], again := [] }
      else s.logEvent x.pkg x.dom 7 0 x.id (natLe 8 k)
    (s1.setPhase l .stage).modLaunch l fun y => { y with ckpt := false }

def execCheckpointPauseEnd (l : Nat) (s : State) : Host.Outcome State Fault Refusal :=
  event true s fun s => s.pauseEnd l

end Sys2Proof.Machine
end

