-- ==== Sys2Proof/Machine/Sched.lean ====
section
/-!
DEFINITION. The scheduler: starting and resuming launches (R16, R28, R32, R34, R43, R312, R314), ageing (R28), demands and
pre-emption (R33, R45, R311), parks at level 7 (R376) and dies that leave service (R22).
-/

namespace Sys2Proof.Machine

open Sys2Proof

/-! ### Candidates (R28, R32, R34) -/

/-- A package's scheduler may start launches of a domain (R368, R376, R377, R383). -/
def State.mayStart (s : State) (p d : Nat) : Bool :=
  let x := s.pkg p
  s.open p d && !x.parksAll && !x.failed && x.drain == .none && !(x.dom d).restore

/-- Effective priority (R28). -/
def Launch.eff (x : Launch) : Nat := min 7 (x.desc.prio + x.aged)

/-- Launches waiting in a domain's queues: pre-empted ones, then filled entries. -/
def State.aheadOf (s : State) (p d : Nat) : List Nat := (List.range 8).flatMap fun q => (((s.pkg p).dom d).queue q).ahead
def State.entriesOf (s : State) (p d : Nat) : List Nat := (List.range 8).flatMap fun q => (((s.pkg p).dom d).queue q).entries

/-- `a` goes before `b`: higher effective priority, then pre-empted launches, then the earlier place (R32, R33). -/
def State.before (s : State) (a b : Nat × Bool) : Bool :=
  let x := s.launch a.1
  let y := s.launch b.1
  decide (y.eff < x.eff) || (x.eff == y.eff && ((a.2 && !b.2) || (a.2 == b.2 && decide (x.order < y.order))))

/-- The eligible launch that starts next (R32). -/
def State.nextLaunch (s : State) (p d : Nat) : Option Nat :=
  let c := (s.aheadOf p d).map (fun l => (l, true)) ++
    ((s.entriesOf p d).filter fun l => s.depsMet p d (s.launch l).desc).map fun l => (l, false)
  (sortBy s.before c).head?.map (·.1)

/-- Dies that a launch would be granted, in the order of R16; none while some package has too few. -/
def State.grantFor (s : State) (x : Launch) : Option (List (Nat × Nat)) :=
  let free := fun p => s.freeDies p x.dom x.desc.dieMask
  if x.pkgs.all fun p => decide (x.desc.minDies ≤ (free p).length) && s.mayStart p x.dom then
    some (x.pkgs.flatMap fun p => ((free p).take x.desc.maxDies).map fun d => (p, d))
  else none

/-- Take a launch out of its queue. -/
def State.unqueue (s : State) (l : Nat) : State :=
  let x := s.launch l
  s.modQueue x.pkg x.dom x.desc.prio fun q => { q with ahead := q.ahead.filter fun n => n != l, entries := q.entries.filter fun n => n != l }

/-! ### Start and resumption -/

/-- The context areas can be translated and pinned, by the table of the package whose queue held the launch (R314; log entry 74). -/
def State.areasOk (s : State) (l : Nat) : Bool :=
  let x := s.launch l
  s.areaOk x.pkg x.dom x.desc.ctxVa.toNat x.desc.ntile && s.areaOk x.pkg x.dom x.desc.altVa.toNat x.desc.ntile

/-- Start a fresh launch on its dies: the launch-start state of R13, after the check of R314. -/
def State.startFresh (s : State) (l : Nat) (dies : List (Nat × Nat)) : State :=
  if !s.areasOk l then s.endLaunch l 0x97
  else
    let s := (s.modLaunch l fun x => { x with dies := dies }).place l 0
    ((s.startState l).modLaunch l fun x => { x with started := s.free + 1 }).tick

/-- Resume a parked launch on its dies (R312). -/
def State.resumeLaunch (s : State) (l : Nat) (dies : List (Nat × Nat)) : State :=
  (((s.modLaunch l fun x => { x with dies := dies }).place l 0).loadLaunch l).snapshot l

/-- Firmware sets the CCE weight of a launch's tiles when it places it (R43). -/
def State.setWeight (s : State) (l w : Nat) : State := s.mapTiles l fun x => { x with weight := w }

/-- A launch one of whose dependences ended with a non-zero status is not run (R34). -/
def State.firstFailed (s : State) (p d : Nat) : Option Nat := (s.entriesOf p d).find? fun l => s.depsFailed p d (s.launch l).desc

/-- The scheduler of a package starts or resumes the next launch of a domain, with a CCE weight (R16, R32, R43). -/
def State.startNext (s : State) (p d weight : Nat) : State :=
  if !s.open p d then s
  else match s.firstFailed p d with
    | some l => (s.unqueue l).endLaunch l 0x99
    | none =>
      if !s.mayStart p d then s
      else match s.nextLaunch p d with
        | none => s
        | some l =>
          match s.grantFor (s.launch l) with
          | none => s
          | some dies =>
            let parked := (s.launch l).lp != []
            let s := (s.unqueue l).modLaunch l fun x => { x with aged := 0, demand := 0, demandFor := [], lapsed := [] }
            (if parked then s.resumeLaunch l dies else s.startFresh l dies).setWeight l weight

def execLaunchStart (pkg : Nat) (dom : Placing) (s : State) : Host.Outcome State Fault Refusal :=
  event (okPkg pkg && okDom dom.dom && decide (1 ≤ dom.weight ∧ dom.weight ≤ 15)) s fun s => s.startNext pkg dom.dom dom.weight

/-- A queued launch has waited another 100 ms: entry `k` of its level, pre-empted launches first (R28). A pre-empted launch that waits to
be resumed ages like a queued one (log entry 80). -/
def State.age (s : State) (p d q k : Nat) : State :=
  let x := ((s.pkg p).dom d).queue q
  match (x.ahead ++ x.entries)[k]? with
  | some l => if (s.launch l).eff < 7 then s.modLaunch l fun y => { y with aged := y.aged + 1 } else s
  | none => s

def execAging (pkg dom q k : Nat) (s : State) : Host.Outcome State Fault Refusal :=
  event (okPkg pkg && okDom dom && okQueue q) s fun s => s.age pkg dom q k

/-! ### Demands and pre-emption (R33, R45, R311) -/

/-- A phase of a launch that computes or stands at a barrier. -/
def Phase.runs : Phase → Bool
  | .stage | .compute | .closing | .voted | .sent | .aborting | .committed | .paused => true
  | _ => false

/-- A launch that computes or stands at a barrier. -/
def Launch.running (x : Launch) : Bool := x.lp != [] && x.lp.all fun e => e.2.phase.runs

/-- A launch that has been asked to park, or is parking: its dies come back. -/
def Launch.leaving (x : Launch) : Bool := x.lp.any fun e => e.2.parkReq || e.2.causes.contains 0x47 || e.2.phase == .parking

/-- Running launches of a domain that a queued launch of base priority `b` may pre-empt: lowest base priority first, latest
start first among equals (R33). A launch that was pre-empted and resumed counts by its first start (log entry 72). -/
def State.victims (s : State) (d b : Nat) : List Nat :=
  let c := (s.launches.filter fun e => e.2.dom == d && e.2.running && !e.2.leaving && decide (e.2.desc.prio < b)).map (·.1)
  sortBy (fun m n => let x := s.launch m; let y := s.launch n
    decide (x.desc.prio < y.desc.prio) || (x.desc.prio == y.desc.prio && decide (y.started < x.started))) c

/-- Dies of a package that come back to a launch's domain: those of some launches, of launches that are leaving, those that a launch
vacates in a move under way, and those demanded back (R33, R45). A die that has left service does not come back (R16, R22). -/
def State.comingBack (s : State) (x : Launch) (gone : List Nat) (p : Nat) : List Nat :=
  (List.range 8).filter fun d => (s.pkg p).dieUp d && x.desc.dieMask.getLsbD d && s.launches.any fun e => e.2.dom == x.dom && e.2.held.contains (p, d) &&
    (gone.contains e.1 || e.2.leaving || e.2.vacates p d || (e.2.givesBack p).contains d)

/-- Dies that a launch lacks on a package, with those of some launches counted as free. -/
def State.lack (s : State) (x : Launch) (gone : List Nat) (p : Nat) : Nat :=
  x.desc.minDies - ((s.freeDies p x.dom x.desc.dieMask).length + (s.comingBack x gone p).length)

def State.enough (s : State) (x : Launch) (gone : List Nat) : Bool := x.pkgs.all fun p => s.lack x gone p == 0

/-- The launches that must be pre-empted, in order, until the minimum is free. -/
def State.picked (s : State) (x : Launch) : List Nat → List Nat → List Nat
  | gone, [] => gone
  | gone, v :: vs => if s.enough x gone then gone else s.picked x (gone ++ [v]) vs

/-- An ELASTIC launch with more dies than its minimum and those demanded from it already, none of whose demands for the sake of launch
`h` has lapsed since its last reshape point (R45; log entry 41). -/
def Launch.demandable (x : Launch) (h : Nat) : Bool :=
  x.desc.elastic && !x.lapsed.contains h && x.pkgs.any fun p => decide (x.desc.minDies + x.demand < (x.diesOn p).length)

/-- What the scheduler asks of a running launch. -/
inductive Ask where
  | demand (h n : Nat)
  | preempt
deriving DecidableEq, Repr

/-- What the scheduler asks of launch `l` for the sake of queued launch `h` (R33, R45): first dies back from each ELASTIC launch
that has some to spare, in the order of R33, until nothing is lacking; of each as many as the queued launch then lacks on the
package where it lacks most, beside those demanded already, on every package of the demanded one. When no such launch is left, those
that must be pre-empted are, if that serves it, while demands are still to be served (log entry 41). -/
def State.askFor (s : State) (l h : Nat) : Option Ask :=
  let x := s.launch h
  let vs := s.victims (s.launch l).dom x.desc.prio
  if s.enough x [] then none
  else match vs.find? fun v => (s.launch v).demandable h with
    | some v => if v == l then some (.demand h (x.pkgs.foldl (fun n p => max n (s.lack x [] p)) 0)) else none
    | none => if s.enough x vs && (s.picked x [] vs).contains l then some .preempt else none

/-- The request to launch `l` for the first queued launch of its domain, by package, that wants something of it: the next one
of a queue that lacks dies. -/
def State.ask (s : State) (l : Nat) : Option Ask :=
  let d := (s.launch l).dom
  (s.pkgs.filterMap fun e => match s.nextLaunch e.1 d with
    | some h => if s.mayStart e.1 d && (s.grantFor (s.launch h)).isNone then s.askFor l h else none
    | none => none).head?

/-- Ask a launch to park: an early abort with 0x47 while its vote is open on some package, in STAGE too, else
a park after the commit (R311; log entry 38). -/
def State.preempt (s : State) (l : Nat) : State :=
  let s := (s.modLaunch l fun x => { x with order := s.free }).tick
  match (s.launch l).pkgs.find? fun p => s.outcome l p == .open with
  | some p => s.raiseB l p 0x47
  | none => s.modLaunch l fun x => x.mapLp fun y => { y with parkReq := true }

/-- The scheduler's request to a running launch; how many dies it demands is the model's choice (log entry 41). -/
def State.preemptionRequest (s : State) (l : Nat) : State :=
  if !(s.launch l).running || (s.launch l).leaving then s
  else match s.ask l with
    | none => s
    | some (.demand h n) => s.modLaunch l fun y => { y with demand := y.demand + n, demandFor := dedup (y.demandFor ++ [h]) }
    | some .preempt => s.preempt l

def execPreemptionRequest (l : Nat) (s : State) : Host.Outcome State Fault Refusal :=
  event true s fun s => s.preemptionRequest l

/-- A launch has not come to a barrier: some package of it computes or drains its work. -/
def Launch.computes (x : Launch) : Bool := x.lp.any fun e => e.2.phase == .compute || e.2.phase == .closing

/-- The package on which a launch that runs on package `p` is aborted from outside: `p` itself, or another one where the superstep's
outcome is still open. -/
def State.abortsOn (s : State) (l p : Nat) : Option Nat := (p :: (s.launch l).pkgs).find? fun q => s.outcome l q == .open

/-- No barrier came within 500 µs of a park at level 7 or at the drain ceiling: the launches of the package that still compute somewhere
abort with 0x48 (R311, R376, R381). -/
def State.parkTimeout (s : State) (p : Nat) : State :=
  if !(s.pkg p).parksAll then s
  else s.launches.foldl (fun s e =>
    match (if (s.launch e.1).pkgs.contains p && (s.launch e.1).computes then s.abortsOn e.1 p else none) with
    | some q => s.raiseB e.1 q 0x48
    | none => s) s

def execPowerParkTimeout (pkg : Nat) (s : State) : Host.Outcome State Fault Refusal :=
  event (okPkg pkg) s fun s => s.parkTimeout pkg

/-! ### A die leaves service (R22, R371) -/

/-- The launch stands at a commit on every package: its next STAGE has not ended. -/
def Launch.atCommit (x : Launch) : Bool :=
  x.lp != [] && x.move.isNone && x.lp.all fun e => (e.2.phase == .stage || e.2.phase == .paused) && e.2.reexec == 0 && decide (0 < e.2.sstep)

/-- The places of a launch when the tiles of a lost die, on the physical tiles `old`, migrate to the tiles of another die, in order, and
every other tile stays (R22 step 1); none when that die has too few of them. -/
def State.migrated (s : State) (l : Nat) (old new : List Nat) : Option (List (Nat × Nat)) :=
  if new.length < old.length then none
  else some ((List.range (s.launch l).desc.ntile).map fun t =>
    let x := s.tile l t
    match old.findIdx? fun q => q == x.phys with
    | some j => (new.getD j 0, x.wave)
    | none => (x.phys, x.wave))

/-- The physical tiles of a die that a launch's tiles stand on, ascending. -/
def State.standsOn (s : State) (l p d : Nat) : List Nat :=
  sortBy (fun a b => decide (a < b)) (dedup (((List.range (s.launch l).desc.ntile).map fun t => (s.tile l t).phys).filter fun q =>
    physPkg q == p && physDie q == d))

/-- Place a launch again without a lost die (R22). Of several free permitted dies the lowest-numbered is granted in its place (log entry
78). Where the die granted in its place has fewer tiles than the launch used, the launch
is numbered anew over the dies that it then holds (log entry 68). -/
def State.loseDie (s : State) (l p d : Nat) : State :=
  let x := s.launch l
  let left := x.dies.filter fun e => e != (p, d)
  let order := fun (ds : List (Nat × Nat)) => x.pkgs.flatMap fun q =>
    (sortBy (fun a b : Nat × Nat => decide (a.2 < b.2)) (ds.filter fun e => e.1 == q))
  let anew := fun (ds : List (Nat × Nat)) => s.beginMove l { dies := ds, places := s.placesOn l ds }
  match s.freeDies p x.dom x.desc.dieMask with
  | f :: _ =>
    let dies := order ((p, f) :: left)
    (match s.migrated l (s.standsOn l p d) (s.dieTiles (p, f)) with
     | some places => s.beginMove l { dies := dies, places := places }
     | none => anew dies)
  | [] =>
    if x.desc.minDies ≤ (left.filter fun e => e.1 == p).length then anew (order left)
    else if x.desc.elastic && left != [] then anew (order left)
    else s.launchFault l 0x84

/-- Firmware takes a die out of service at a commit of each launch that holds it, or is moving to it; the die shows a map of zeros. -/
def State.dieOut (s : State) (p d : Nat) : State :=
  let holders := (s.launches.filter fun e => e.2.held.contains (p, d)).map (·.1)
  if holders.any fun l => !(s.launch l).atCommit then s
  else
    let s := s.modPkg p fun x => { x with harvest := x.harvest.set (d % 8) 0 }
    holders.foldl (fun s l => s.loseDie l p d) s

def execDieOutOfService (pkg die : Nat) (s : State) : Host.Outcome State Fault Refusal :=
  event (okPkg pkg && decide (die < 8)) s fun s => s.dieOut pkg die

end Sys2Proof.Machine
end

