-- ==== Sys2Proof/Machine/Fabric.lean ====
section
/-!
DEFINITION. The scale-up fabric: packets (R336-R340, R389, R391), flits and ports (R329-R331, R338), and the lanes of a port
(R332-R334).
-/

namespace Sys2Proof.Machine

open Sys2Proof

/-! ### Packets -/

/-- Replace or drop the packet at an index. -/
def State.setPacket (s : State) (k : Nat) (f : Packet → Packet) : State :=
  { s with fabric := s.fabric.mapIdx fun i q => if i == k then f q else q }
def State.dropPacket (s : State) (k : Nat) : State := { s with fabric := s.fabric.eraseIdx k }

/-- An earlier packet to the same destination with the same routing address holds a packet back (R337): until it has arrived
on the same path, and until it has been answered on another one. -/
def Packet.holds (r q : Packet) : Bool :=
  r.src == q.src && r.dst == q.dst && r.ra == q.ra && r.st != .held && (r.path != q.path || r.st == .inFlight)

/-- A package answers packets of a domain: its power does not fail, and the domain's pages are there (R377, R383). -/
def State.answers (s : State) (p d : Nat) : Bool :=
  ((s.pkg p).drain == .none || (s.pkg p).drain == .asserted) && (s.pkg p).hosts d && !((s.pkg p).dom d).restore

/-- A packet can arrive: it has been sent, its destination answers, and none sent before it holds it back. -/
def State.arrivable (s : State) (k : Nat) (q : Packet) : Bool :=
  q.st == .inFlight && s.answers q.dst (s.launch q.launch).dom && !((s.fabric.take k).any fun r => r.holds q)

/-- The page of a global effect can have its shadow page at the home (R64). Where the page has no valid translation at its home
any more when a held write arrives, the write is accepted and its bytes are lost (log entry 61). -/
def State.arriveShadow (s : State) (l home va : Nat) : State × Bool :=
  match s.xlate l home va with
  | some g =>
    match s.shadow l g (va / 65536) with
    | some s' => (s', true)
    | none => (s, false)
  | none => (s, true)

/-- One effect arrives: held at the destination, with the class B cause it brings, if any (R389). -/
def State.arrive (s : State) (l dst : Nat) (p : Pend) : State × Option Nat :=
  let hold := fun (s : State) => s.modLaunch l fun x => { x with pends := x.pends ++ [p] }
  let full := fun (s : State) => p.eff.charged.any fun t => decide ((s.launch l).desc.pool * 0x20000 < s.poolBytes l t)
  match p.eff with
  | .gWrite va _ => let r := s.arriveShadow l dst va.toNat; (hold r.1, if r.2 then none else some 0x44)
  | .redAdd va _ _ => let r := s.arriveShadow l dst va.toNat; (hold r.1, if r.2 then none else some 0x44)
  | _ => let s := hold s; (s, if full s then some 0x43 else none)

/-- ABORT of the launch has begun on a package that runs part of it. -/
def State.inAbort (s : State) (l p : Nat) : Bool := (s.launch l).pkgs.contains p && (s.lpkg l p).phase == .aborting

/-- Every effect of a packet arrives; the lowest cause they bring, a conflict among them that they complete or whose lowest sources
they change: its record is kept for the launch (R325, R391). -/
def State.arriveAll (s : State) (q : Packet) : State × Option Nat :=
  let before := s.conflictsOn q.launch q.dst
  let r := q.pends.foldl (fun (a : State × List Nat) p =>
    let b := a.1.arrive q.launch q.dst p
    (b.1, a.2 ++ b.2.toList)) (s, [])
  let found := r.1.conflictsOn q.launch q.dst
  if before != found then (r.1.modLaunch q.launch fun x => { x with found := mergeFound x.found found }, leastOf (r.2 ++ [0x4A]))
  else (r.1, leastOf r.2)

/-- A GFAA request is served at the counter's home, and its reply is the result that the task waits for (R247, R340). -/
def State.serveGfaa (s : State) (home : Nat) (g : GfaaReq) : State :=
  let r := s.gfaaAt home g.addr g.add
  r.1.modTask g.slot fun t => { t with pend := t.pend.map fun q =>
    if q.src == (ResSrc.gfaa g.id) then { q with src := .value (BitVec.ofNat 2048 r.2) } else q }

/-- A package that runs part of a launch and has not yet sent its vote (R389). -/
def State.voteOpen (s : State) (l p : Nat) : Bool := (s.launch l).pkgs.contains p && s.outcome l p == .open

/-- A packet is received: acknowledged, or refused; a refusing package whose vote is open votes the cause itself (R389). What arrives where
ABORT has begun is discarded with the superstep, and whatever cause it would bring is absorbed (R303, R390, R391). -/
def State.receive (s : State) (k : Nat) : State :=
  match s.fabric[k]? with
  | none => s
  | some q =>
    if !s.arrivable k q then s
    else match q.gfaa with
      | some g => (s.serveGfaa q.dst g).setPacket k fun p => { p with st := .received }
      | none =>
        let r := if s.inAbort q.launch q.dst then (s, none) else s.arriveAll q
        match r.2 with
        | none => r.1.setPacket k fun p => { p with st := .received }
        | some c =>
          if r.1.voteOpen q.launch q.dst then (r.1.raiseB q.launch q.dst c).dropPacket k
          else r.1.setPacket k fun p => { p with st := .refused c }

def execPacketReceive (k : Nat) (s : State) : Host.Outcome State Fault Refusal :=
  event true s fun s => s.receive k

/-- The sender learns that its packet was received (R339). -/
def State.acked (s : State) (k : Nat) : State :=
  match s.fabric[k]? with
  | some q => if q.st == .received then s.dropPacket k else s
  | none => s

def execPacketAck (k : Nat) (s : State) : Host.Outcome State Fault Refusal :=
  event true s fun s => s.acked k

/-- The sender learns that its packet was refused, and votes the cause (R389). -/
def State.refused (s : State) (k : Nat) : State :=
  match s.fabric[k]? with
  | some q => match q.st with
    | .refused c => (s.raiseB q.launch q.src c).dropPacket k
    | _ => s
  | none => s

def execPacketRefusal (k : Nat) (s : State) : Host.Outcome State Fault Refusal :=
  event true s fun s => s.refused k

/-! ### Ports (R330, R331, R338) -/

def Pkg.port (x : Pkg) (n : Nat) : Port := Tab.get x.ports .zero n
def State.modPort (s : State) (p n : Nat) (f : Port → Port) : State := s.modPkg p fun x => { x with ports := Tab.put x.ports n (f (x.port n)) }
def Port.lane (x : Port) (n : Nat) : Lane := Tab.get x.lanes .zero n
def Port.setLane (x : Port) (n : Nat) (v : Lane) : Port := { x with lanes := Tab.put x.lanes n v }

/-- Addresses of the reads that a launch's tasks and copies on a package wait for (R340). -/
def State.awaited (s : State) (l p : Nat) : List Nat :=
  ((s.tasksOn l p).flatMap fun e => e.2.2.pend.flatMap fun r => match r.src with
    | .bytes _ _ src => src.map fun b => b.2.toNat
    | _ => []) ++
  (s.tilesOn l p).flatMap fun t => (s.tile l t).copies.flatMap fun c => if c.kind == .put then [] else c.ring.map (·.1)

/-- A path of package `q` to package `d` leaves through a port of package `p`, or ends at it (R335; log entry 54). -/
def pathThrough (q d : Nat) (e : BitVec 64) (p port : Nat) : Bool :=
  (q == p && pathPort e == port) || (d == p && Config.lastPort d e % 28 == port)

/-- The packet is in flight through a port. -/
def Packet.through (q : Packet) (p port : Nat) : Bool := q.st == .inFlight && pathThrough q.src q.dst q.path p port

/-- A launch has a packet or a read of package `q` in flight through a port of package `p`. -/
def State.usesPort (s : State) (l q p port : Nat) : Bool :=
  (s.fabric.any fun k => k.launch == l && k.src == q && k.through p port) ||
    (s.awaited l q).any fun va => match s.remoteOf l q va with
      | some (d, ra, peer) => (peer || !Config.dieHit (ra.toNat / 64) s.free) && (s.route q d ra).any fun e => pathThrough q d e p port
      | none => false

/-- Packages of launches, each with its launch, have lost traffic: they vote 0x42; one in ABORT waits for the new paths before its re-run
(R338, R390). -/
def State.loseTraffic (s : State) (hit : List (Nat × Nat)) : State :=
  hit.foldl (fun s e =>
    if s.outcome e.1 e.2 == .aborting then s.modLaunch e.1 fun x => { x with waitPaths := dedup (x.waitPaths ++ [e.2]) }
    else s.raiseB e.1 e.2 0x42) s

/-- The packages of launches, each with its launch, that satisfy a test. -/
def State.launchPkgs (s : State) (f : Nat → Nat → Bool) : List (Nat × Nat) :=
  s.launches.flatMap fun e => (e.2.pkgs.filter fun q => f e.1 q).map fun q => (e.1, q)

/-- A port is lost: packets in flight through it are lost, and each package of a launch that had one votes 0x42 (R338). -/
def State.losePort (s : State) (p port : Nat) : State :=
  let hit := s.launchPkgs fun l q => s.usesPort l q p port
  let s := { s with fabric := s.fabric.filter fun (k : Packet) => !k.through p port }
  (s.modPort p port fun x => { x with lost := true }).loseTraffic hit

/-- A launch has a packet of package `q` that package `p` has still to answer, or a read of a line that crosses the fabric to it. -/
def State.awaits (s : State) (l q p : Nat) : Bool :=
  (s.fabric.any fun k => k.launch == l && k.src == q && k.dst == p && k.st != .held) ||
    (s.awaited l q).any fun va => match s.remoteOf l q va with
      | some (d, ra, peer) => d == p && (peer || !Config.dieHit (ra.toNat / 64) s.free)
      | none => false

/-- A package stops answering: what is on its way to it and from it is lost, and each other package of a launch that awaits an answer of
it votes 0x42, as at a lost port (R338, R339). -/
def State.cutOff (s : State) (p : Nat) : State :=
  let hit := s.launchPkgs fun l q => q != p && s.awaits l q p
  let s := { s with fabric := s.fabric.filter fun k => k.src != p && (k.dst != p || k.st == PktState.held) }
  s.loseTraffic hit

def execPortLost (pkg port : Nat) (s : State) : Host.Outcome State Fault Refusal :=
  event (okPkg pkg && okPort port) s fun s => s.losePort pkg port

/-- The active lanes of a port, ascending. -/
def Port.activeLanes (x : Port) : List Nat := (List.range 64).filter fun n => (x.lane n).mode == .active

/-- A beat of the stream goes on the active lane of its rank; its corrected symbols are counted there and on the port, and an
uncorrectable codeword in it is counted (R329-R331). -/
def Port.takeBeat (x : Port) (b : Nat × Bool) : Port :=
  match x.activeLanes[x.beat % x.activeLanes.length]? with
  | none => x
  | some n =>
    { x with beat := x.beat + 1, corrsym := x.corrsym + BitVec.ofNat 48 b.1, uncorr := x.uncorr + BitVec.ofNat 48 (b01 b.2) }.setLane n
      { x.lane n with now := (x.lane n).now + b.1 }

/-- A flit of 8 beats comes, its first beat the stream's next one: one with an uncorrectable codeword in any beat is discarded and
sent again, and the 16th replay of one flit loses the port (R329, R330). -/
def State.flit (s : State) (p port first : Nat) (beats : List (Nat × Bool)) : State :=
  let x := (s.pkg p).port port
  if x.lost || x.activeLanes == [] || first != x.beat then s
  else
    let s := s.modPort p port fun x =>
      { beats.foldl Port.takeBeat x with replays := if beats.any (·.2) then x.replays + 1 else 0 }
    if 16 ≤ ((s.pkg p).port port).replays then s.losePort p port else s

def execFlit (pkg port first : Nat) (corrected : List Nat) (bad : List Bool) (s : State) : Host.Outcome State Fault Refusal :=
  event (okPkg pkg && okPort port && decide (corrected.length = 8 ∧ bad.length = 8)) s fun s => s.flit pkg port first (corrected.zip bad)

/-! ### Lanes (R332-R334) -/

/-- The estimate of a lane: corrected symbols of its last 256 sub-windows. -/
def Lane.estimate (v : Lane) : Nat := v.wins.foldl (· + ·) 0

def Lane.retraining (v : Lane) : Bool := match v.mode with
  | .locking _ => true
  | .waiting _ => true
  | _ => false

/-- Lanes of a port that carry beats, that retrain, and that have failed (R331). -/
def Port.actives (x : Port) : Nat := x.activeLanes.length
def Port.retraining (x : Port) : Nat := ((List.range 64).filter fun n => (x.lane n).retraining).length
def Port.failedLanes (x : Port) : Nat := ((List.range 64).filter fun n => (x.lane n).mode == .failed).length

/-- The port can spare a lane (R332). -/
def Port.canWithdraw (x : Port) : Bool := decide (x.minlanes.toNat + 1 ≤ x.actives) && decide (x.retraining < 8)

/-- An active lane whose estimate has reached the threshold. -/
def Port.dueLane (x : Port) (n : Nat) : Bool := (x.lane n).mode == .active && decide (x.thr.toNat ≤ (x.lane n).estimate)

/-- A lane event in the log of every domain of the package (R365 type 4). -/
def State.logLane (s : State) (p port lane : Nat) : State :=
  s.logAll p 4 port (natLe 8 lane ++ natLe 8 (((s.pkg p).port port).lane lane).estimate)

/-- A sub-window ends: the estimate is computed anew, and a lane that should be withdrawn but must stay is logged once an
episode (R332). -/
def State.subWindow (s : State) (p port lane : Nat) : State :=
  let x := (s.pkg p).port port
  let v := x.lane lane
  if v.mode != .active || x.lost then s
  else
    let w := { v with wins := (v.now :: v.wins).take 256, now := 0 }
    let x' := x.setLane lane w
    if !x'.dueLane lane then s.modPort p port fun y => y.setLane lane { w with episode := false }
    else if x'.canWithdraw then s.modPort p port fun y => y.setLane lane w
    else
      let s := s.modPort p port fun y => y.setLane lane { w with episode := true }
      if v.episode then s else s.logLane p port lane

def execSubWindowEnd (pkg port lane : Nat) (s : State) : Host.Outcome State Fault Refusal :=
  event (okPkg pkg && okLane port lane) s fun s => s.subWindow pkg port lane

/-- At a flit boundary a lane that has reached the threshold is withdrawn and starts its first attempt to lock (R332,
R334). -/
def State.withdraw (s : State) (p port lane : Nat) : State :=
  let x := (s.pkg p).port port
  if x.lost || !x.dueLane lane || !x.canWithdraw then s
  else s.modPort p port fun y =>
    { y with count := y.count + 1, last := BitVec.ofNat 6 lane, lv := true }.setLane lane { y.lane lane with mode := .locking 1, episode := false }

def execLaneWithdrawal (pkg port lane : Nat) (s : State) : Host.Outcome State Fault Refusal :=
  event (okPkg pkg && okLane port lane) s fun s => s.withdraw pkg port lane

/-- A retraining lane has locked: it rejoins with its estimate at 0 (R333). -/
def State.rejoin (s : State) (p port lane : Nat) : State :=
  match (((s.pkg p).port port).lane lane).mode with
  | .locking _ => s.modPort p port fun y => y.setLane lane Lane.zero
  | _ => s

def execLaneRejoin (pkg port lane : Nat) (s : State) : Host.Outcome State Fault Refusal :=
  event (okPkg pkg && okLane port lane) s fun s => s.rejoin pkg port lane

/-- An attempt has not locked within 2 ms: the lane waits 100 ms, or after its third attempt is marked failed and logged
(R334). -/
def State.lockTimeout (s : State) (p port lane : Nat) : State :=
  let v := ((s.pkg p).port port).lane lane
  match v.mode with
  | .locking n =>
    if n < 3 then s.modPort p port fun y => y.setLane lane { v with mode := .waiting n }
    else (s.modPort p port fun y => y.setLane lane { v with mode := .failed }).logLane p port lane
  | _ => s

def execLockAttemptTimeout (pkg port lane : Nat) (s : State) : Host.Outcome State Fault Refusal :=
  event (okPkg pkg && okLane port lane) s fun s => s.lockTimeout pkg port lane

/-- The 100 ms between attempts are over (R334). -/
def State.retryEnd (s : State) (p port lane : Nat) : State :=
  let v := ((s.pkg p).port port).lane lane
  match v.mode with
  | .waiting n => s.modPort p port fun y => y.setLane lane { v with mode := .locking (n + 1) }
  | _ => s

def execRetryWaitEnd (pkg port lane : Nat) (s : State) : Host.Outcome State Fault Refusal :=
  event (okPkg pkg && okLane port lane) s fun s => s.retryEnd pkg port lane

/-- A write of 1 to CLRFAIL returns the failed lanes to retraining (R331, R334). -/
def State.clrfail (s : State) (p port : Nat) : State :=
  s.modPort p port fun y => (List.range 64).foldl (fun y n =>
    if (y.lane n).mode == .failed then y.setLane n { y.lane n with mode := .locking 1 } else y) y

def execClrfail (pkg port : Nat) (s : State) : Host.Outcome State Fault Refusal :=
  event (okPkg pkg && okPort port) s fun s => s.clrfail pkg port

/-! ### Failed packages (R352, R357) -/

/-- Members of the star that take part. -/
def State.alive (s : State) : List Nat := s.star.members.filter fun q => !(s.pkg q).failed

/-- Change every package. -/
def State.mapPkgs (s : State) (f : Pkg → Pkg) : State := { s with pkgs := s.pkgs.map fun e => (e.1, f e.2) }

/-- No acknowledgement of a package is waited for any longer. -/
def Pool.unwait (q : Pool) (p : Nat) : Pool := q.acked fun n => n.1 == p

/-- The launch and superstep whose pages a frame of a package lists. -/
def Frame.lists (f : Frame) (p : Nat) : Option (Nat × Nat) :=
  match f.pay with
  | .commit l k _ => if f.src == p then some (l, k) else none
  | _ => none

/-- A member discards what a failed package sent in visit `v` or later, what it missed of that package, which nobody sends
again, and with them every list of pages whose LAST frame does not come (R350, R357; log entry 60). -/
def Pkg.discard (x : Pkg) (sent : List Frame) (p v : Nat) : Pkg :=
  let rx := x.rx.filter fun r => match r.1 with
    | some f => f.src != p || decide (f.visit < v)
    | none => !sent.any fun f => f.src == p && f.visit == r.2
  let ends := fun (c : Nat × Nat) => rx.any fun r => match r.1 with
    | some f => f.last && f.lists p == some c
    | none => false
  { x with rx := rx.filter fun r => match r.1.bind (·.lists p) with
             | some c => ends c
             | none => true,
           listing := x.listing.filter fun e => e.1.1 != p || ends e.1.2 }

/-- A launch that spans a failed package stops where it stands and waits for a spare, its superstep discarded with the votes that have not
been sent (R352; log entry 69); the commit notices and broadcast writes of its committed supersteps are sent all the same (R75). One that
is parked keeps its place in its queue. -/
def State.stopForSpare (s : State) (l : Nat) : State :=
  ((((s.rollback l false false).unsend fun f => f.votesOf l).mapTiles l fun y => { y with saving := false }).modLaunch l fun x =>
    { x with move := none, moveHeld := false }).setPhase l .waitSpare

/-- A launch of several packages, one of them the package. -/
def Launch.spans (x : Launch) (p : Nat) : Bool := x.pkgs.contains p && decide (1 < x.pkgs.length)

/-- What a launch has under way on a package that fails stops: its superstep, a park, a decision of firmware, or a restart. -/
def Launch.stopsAt (x : Launch) (p : Nat) : Bool :=
  x.spans p && x.lp.any fun y => y.2.phase.runs || y.2.phase == .parking || y.2.phase == .held || (y.2.phase == .ended && x.fault.isSome)

/-- Firmware declares a package failed: it takes no further part, its entries of the schedule pass unused, no acknowledgement
of it is waited for, and every multi-package launch on it stops and waits for a spare (R352, R357). A commit that a package of the
launch has applied is decided, and stands on every one (R349). -/
def State.packageFailed (s : State) (p : Nat) : State :=
  let s := s.launches.foldl (fun s e => if e.2.spans p then s.settle e.1 else s) s
  let v := s.star.visit
  let sent := s.star.sent
  let s := (s.modPkg p fun x => { x with failed := true, tx := [], txHeld := [] }).mapPkgs fun x => (x.discard sent p v).mapPools fun q => q.unwait p
  let s := { s with star := { s.star with sent := sent.filter fun f => f.src != p, unused := dedup (s.star.unused ++ [p]) } }
  (s.launches.foldl (fun (s : State) e => if (s.launch e.1).stopsAt p then s.stopForSpare e.1 else s) s).releaseHeld.checkEnds

def execPackageFailed (pkg : Nat) (s : State) : Host.Outcome State Fault Refusal :=
  event (okPkg pkg) s fun s => s.packageFailed pkg

/-! ### Path table (R335, R338) -/

/-- The path table names a way to a package, lost or not. -/
def Pkg.pathKnown (x : Pkg) (d : Nat) : Bool := (List.range 4).any fun q => (Tab.get x.paths 0 (4 * d + q)).getLsbD 48

/-- Firmware rewrites entries of the path table and marks invalid those through a lost port, a remote one included; launches that waited for this
package's paths go on. A destination left with no valid path counts as a failed package (R352). -/
def State.rewritePaths (s : State) (p : Nat) (es : List (Nat × BitVec 64)) : State :=
  let known := (s.pkgs.map (·.1)).filter fun d => d != p && (s.pkg p).pathKnown d && !(s.pkg d).failed
  let s := s.modPkg p fun x =>
    let t := es.foldl (fun t e => Tab.put t e.1 e.2) x.paths
    { x with paths := t.map fun e =>
        if (x.port (pathPort e.2)).lost || ((s.pkg (e.1 / 4)).port (Config.lastPort (e.1 / 4) e.2 % 28)).lost then (e.1, e.2 &&& ~~~(1#64 <<< 48)) else e }
  let s := s.mapLaunches fun x => { x with waitPaths := x.waitPaths.filter fun q => q != p }
  (known.filter fun d => s.pathsTo p d == []).foldl State.packageFailed s

def execPathTableRewrite (pkg : Nat) (entries : List (Nat × BitVec 64)) (s : State) : Host.Outcome State Fault Refusal :=
  event (okPkg pkg && entries.all fun e => decide (e.1 < 768)) s fun s => s.rewritePaths pkg entries

end Sys2Proof.Machine
end

