-- ==== Sys2Proof/Machine/Plane.lean ====
section
/-!
DEFINITION. The broadcast plane: visits (R344, R345), frames in pawn order (R346-R350, R354), failed packages and spares
(R352, R353, R357).
-/

namespace Sys2Proof.Machine

open Sys2Proof

/-! ### Visits -/

/-- The fields of a schedule entry (R344). -/
def entryPkg (e : BitVec 32) : Nat := bits e.toNat 0 8
def entryDom (e : BitVec 32) : Nat := bits e.toNat 8 2
def entryValid (e : BitVec 32) : Bool := bitAt e.toNat 10

/-- Valid entries of a schedule: the length of a round. -/
def roundOf (sched : List (BitVec 32)) : Nat := (sched.filter entryValid).length

/-- The next valid entry from a place on, cyclically. -/
def nextEntry (sched : List (BitVec 32)) (pos : Nat) : Option Nat :=
  match firstFrom (fun n => (sched[n]?.map entryValid).getD false) pos (sched.length - pos) with
  | some n => some n
  | none => firstFrom (fun n => (sched[n]?.map entryValid).getD false) 0 sched.length

/-- A package has the ACK of a frame that it received (R346): with it the acknowledgement of every notice that the sender had
processed (R68, R348). -/
def Pkg.learn (x : Pkg) (f : Frame) : Pkg :=
  let a := max (Tab.get x.acks 0 f.src) f.ack
  { x.mapPools fun q => q.acked fun n => n.1 == f.src && n.2.any fun v => decide (v ≤ a) with acks := Tab.put x.acks f.src a }

/-- Every member has the ACK of the frame that it received last, unless it missed that frame. -/
def State.readAcks (s : State) : State :=
  s.mapPkgs fun x => match x.rx.find? fun r => r.2 == x.lastRx with
    | some (some f, _) => x.learn f
    | _ => x

/-- Members that have not processed a frame, as far as its sender knows (R348). -/
def State.lacking (s : State) (f : Frame) : List Nat :=
  let x := s.pkg f.src
  s.alive.filter fun q => decide ((if q == f.src then x.ack else Tab.get x.acks 0 q) < f.visit)

/-- Frames that every member has processed need no repeat. -/
def State.pruneSent (s : State) : State := { s with star := { s.star with sent := s.star.sent.filter fun f => s.lacking f != [] } }

/-- The first frame of a package that became ready for a domain (R345). -/
def State.readyFrame (s : State) (p d : Nat) : Option Nat := ((s.pkg p).tx.zipIdx.find? fun e => e.1.dom == d).map (·.2)

/-- A frame of the package that some member has not acknowledged for a whole round (R348). -/
def State.repeatFrame (s : State) (p d : Nat) : Option Frame :=
  s.star.sent.find? fun f => f.src == p && f.dom == d && decide (f.visit + roundOf s.star.sched ≤ s.star.visit) && s.lacking f != []

/-- A launch whose BCAST frame is sent is not restarted any more (R308). -/
def State.markSent (s : State) (f : Frame) : State :=
  match f.pay with
  | .bcast l _ _ => if (Tab.find s.launches l).isSome then s.modLaunch l fun x => { x with outward := true } else s
  | _ => s

/-- Every member receives a new frame, which carries its visit and the sender's ACK. -/
def State.deliverFrame (s : State) (f : Frame) : State :=
  let s := s.markSent f
  let f := { f with visit := s.star.visit, ack := (s.pkg f.src).ack }
  let s := s.alive.foldl (fun s q => s.modPkg q fun x => { x with rx := x.rx ++ [(some f, f.visit)], lastRx := f.visit }) s
  { s with star := { s.star with sent := s.star.sent ++ [f] } }

/-- A repeat reaches the members that missed the frame; the others discard it. -/
def State.deliverRepeat (s : State) (f : Frame) : State :=
  let f := { f with rpt := true, ack := (s.pkg f.src).ack }
  s.alive.foldl (fun s q => s.modPkg q fun x =>
    if x.rx.contains (none, f.visit) then
      { x with rx := x.rx.map fun r => if r == (none, f.visit) then (some f, f.visit) else r, lastRx := f.visit }
    else { x.learn f with lastRx := 0 }) s

/-- Members that still lack a frame four rounds after it was first sent (R348). -/
def State.overdue (s : State) : List Nat :=
  s.alive.filter fun q => s.star.sent.any fun f =>
    decide (f.visit + 4 * roundOf s.star.sched ≤ s.star.visit) && (s.pkg q).rx.contains (none, f.visit)

/-- The visit's number comes; a new schedule takes effect at the visit that it names, and ends the unused entries (R344, R357). -/
def State.nextVisit (s : State) : State :=
  let v := s.star.visit + 1
  match s.star.next with
  | some (n, sc) =>
    if n ≤ v then { s with star := { s.star with visit := v, sched := sc, next := none, pos := 0, unused := [] } }
    else { s with star := { s.star with visit := v } }
  | none => { s with star := { s.star with visit := v } }

/-- The holder of a visit sends a repeat, the frame that became ready first, or a PAWN frame, which carries a new schedule when
firmware has one (R345, R347, R348). -/
def State.holderSends (s : State) (p d : Nat) : State :=
  match s.repeatFrame p d with
  | some f => s.deliverRepeat f
  | none => match s.readyFrame p d with
    | some k => match (s.pkg p).tx[k]? with
      | some f => ((s.modPkg p fun x => { x with tx := x.tx.eraseIdx k }).deliverFrame f).releaseHeld
      | none => s
    | none => (s.modPkg p fun x => { x with announce := none }).deliverFrame (frameOf d p true (.pawn (s.pkg p).announce))

/-- A visit begins. Members that still lack a frame after four rounds are declared failed first; the entry of a package that
is failed, or whose entries pass unused, sends nothing. -/
def State.visit (s : State) : State :=
  let s := s.readAcks.pruneSent
  let s := (s.overdue.foldl State.packageFailed s).nextVisit
  match nextEntry s.star.sched s.star.pos with
  | none => { s with star := { s.star with visit := s.star.visit - 1 } }
  | some n =>
    let e := s.star.sched.getD n 0
    let p := entryPkg e
    let s := { s with star := { s.star with pos := n + 1 } }
    if !s.alive.contains p || s.star.unused.contains p || !((s.pkg p).drain == .none || (s.pkg p).drain == .asserted) then s
    else s.holderSends p (entryDom e)

def execVisit (s : State) : Host.Outcome State Fault Refusal :=
  event true s fun s => s.visit

/-- A member misses the frame or repeat that it received last (R346, R348). -/
def State.missFrame (s : State) (p : Nat) : State :=
  s.modPkg p fun x => { x with rx := x.rx.map fun r => if r.2 == x.lastRx then (none, r.2) else r }

def execMissedFrame (pkg : Nat) (s : State) : Host.Outcome State Fault Refusal :=
  event (okPkg pkg) s fun s => s.missFrame pkg

/-! ### Restoring a launch from its last checkpoint (R353) -/

/-- The set of a package of a launch that its partner holds. -/
def State.heldSet (s : State) (l p : Nat) : Option CkptSet :=
  match s.partnerOf l p with
  | some q => (s.pkg q).lastSet l p
  | none => none

/-- The stream record of a slot as its partner holds it (R319). -/
def State.heldStream (s : State) (l p : Nat) (k : Slot) : Option StreamRec :=
  match s.partnerOf l p with
  | some q => (s.pkg q).streams.find? fun r => r.slot == k
  | none => none

/-- A bank with its stream record. -/
def Bank.withStream (b : Bank) : Option StreamRec → Bank
  | some r => { b with qstep := r.qstep, qidx := r.qidx, qdrawprev := r.qdrawprev, pipctr := r.pipctr, pipdrawprev := r.pipdrawprev }
  | none => b

/-- Restore a package of a launch from a set (R353). A page that the launch flipped for the first time after the checkpoint is in no set:
no copy of it is held, and its later bytes stay (log entry 84). -/
def State.restoreSet (s : State) (l p : Nat) (c : CkptSet) : State :=
  let d := (s.launch l).dom
  let s := c.tiles.foldl (fun s e => s.setTile l e.1 { e.2 with saving := false }) s
  let s := c.tasks.foldl (fun s e =>
    let b := e.2.kept.withStream (s.heldStream l p e.1)
    s.setTask e.1 (if e.2.status == .retired then e.2 else { Task.zero with bank := b, kept := b, status := .running })) s
  c.pages.foldl (fun s g => match s.xlateDom p d (g.1 * 65536) with
    | some h => s.modPkg p fun x => { x with hbm := x.hbm.place (h.ppn * 65536) 65536 g.2 }
    | none => s) s

/-- Restore a launch at its last checkpoint on every package, REEXEC 0; without a complete one on each, it ends with 0x80 or
restarts (R353). No set holds the Broadcast Table: what BLD returns in the resumed superstep is the table of the package whose queue held
the launch, as it stands at the restore (log entry 95). -/
def State.restoreLaunch (s : State) (l : Nat) : State :=
  let x := s.launch l
  match x.pkgs.filterMap fun p => (s.heldSet l p).map fun c => (p, c) with
  | [] => s.launchFault l 0x80
  | (p0, c0) :: rest =>
    let cs := (p0, c0) :: rest
    if cs.length != x.pkgs.length || cs.any fun e => e.2.sstep != c0.sstep then s.launchFault l 0x80
    else
      let s := s.modLaunch l fun y => { y with ptOld := [] }
      let s := cs.foldl (fun s e => s.restoreSet l e.1 e.2) s
      let s := s.resetCounters l c0.counters
      let s := s.modLaunch l fun y =>
        { y with pends := [], fetchNow := cs.flatMap fun e => e.2.fetch, fetchNext := [], found := [], flipped := [], again := y.enqueued, serial := false, fresh := true,
                 gflags := c0.gflags, digest := c0.digest, killMark := c0.killMark, waitPaths := [], startAck := (s.pkg y.pkg).ack,
                 lp := y.pkgs.map fun p => (p, { LPkg.zero with phase := .stage, sstep := c0.sstep, bt := ((s.pkg y.pkg).dom y.dom).bt }) }
      ((s.place l 0).loadCmps l).snapshot l

/-- A launch that waited for a spare can go on: none of its packages is failed any longer, and each has processed the frames of the run
that was discarded, so that no vote of it counts in the new one (R349, R353; log entry 69). -/
def State.spareReady (s : State) (l : Nat) : Bool :=
  let x := s.launch l
  x.lp != [] && (x.lp.all fun y => y.2.phase == .waitSpare) && !(x.pkgs.any fun p => (s.pkg p).failed) && !s.framesPending l

/-- A launch that waited for a spare goes on once it can: with a launch fault it ends or restarts by R308, and otherwise it is restored
(R353). -/
def State.goOn (s : State) (l : Nat) : State :=
  if !s.spareReady l then s
  else match (s.launch l).fault with
    | some c => s.launchFault l c
    | none => s.restoreLaunch l

def State.checkSpares (s : State) : State := s.launches.foldl (fun s e => s.goOn e.1) s

/-! ### Processing frames in pawn order (R73, R348) -/

/-- The frame a package processes next. -/
def State.headFrame (s : State) (p : Nat) : Option Frame :=
  if (s.pkg p).failed then none
  else match (s.pkg p).rx with
    | (some f, _) :: _ => some f
    | _ => none

/-- The frame has been processed: ACK moves on, the ACK that it carried is known, and what waited for the notices goes on. -/
def State.popFrame (s : State) (p : Nat) : State :=
  (s.modPkg p fun x => match x.rx with
    | (some f, v) :: r => { x.learn f with rx := r, ack := v }
    | (none, v) :: r => { x with rx := r, ack := v }
    | [] => x).pruneSent.checkEnds.checkSpares

/-- PAWN: a new schedule is kept until its visit number (R344, R347). -/
def State.pawnFrame (s : State) (p : Nat) : State :=
  match s.headFrame p with
  | some f => match f.pay with
    | .pawn sc => (match sc with
      | some n => if (s.pkg p).hosts f.dom then { s with star := { s.star with next := some n } } else s
      | none => s).popFrame p
    | _ => s
  | none => s

def execPawnFrame (pkg : Nat) (s : State) : Host.Outcome State Fault Refusal :=
  event (okPkg pkg) s fun s => s.pawnFrame pkg

/-- The package still takes VOTE frames of (launch, k, REEXEC) (R349). -/
def State.takesVotes (s : State) (p l k reexec : Nat) : Bool :=
  let y := s.lpkg l p
  (s.launch l).pkgs.contains p && [Phase.stage, .compute, .closing, .voted, .sent].contains y.phase && y.sstep == k && y.reexec == reexec

/-- A frame of a commit vote: what it adds to the sender's vote, and whether every vote is now complete. -/
def State.joinVote (s : State) (p : Nat) (f : Frame) (l : Nat) (v : Vote) : State :=
  let s := s.modLpkg l p fun z => { z with seen := Tab.put z.seen f.src v, lasts := if f.last then z.lasts ++ [f.src] else z.lasts }
  let z := s.lpkg l p
  if (s.launch l).pkgs.all fun q => z.lasts.contains q then s.closeVotes l p (z.seen.map (·.2)) else s

/-- A VOTE frame of (launch, k, REEXEC): an abort sends the package into ABORT, its own vote withdrawn if it has not been sent,
and the last commit vote decides (R349). -/
def State.takeVote (s : State) (p : Nat) (f : Frame) (l k reexec : Nat) (v : Vote) : State :=
  if !s.takesVotes p l k reexec then s
  else if v.abort then ((s.withdrawVote l p).enterAbort l p).checkAbort l
  else s.joinVote p f l v

/-- A continuation of a commit vote brings further partials (R356). -/
def State.takeMore (s : State) (p : Nat) (f : Frame) (l k reexec : Nat) (ps : List Partial) : State :=
  match Tab.find (s.lpkg l p).seen f.src with
  | some v => if s.takesVotes p l k reexec then s.joinVote p f l { v with partials := v.partials ++ ps } else s
  | none => s

def State.voteFrame (s : State) (p : Nat) : State :=
  match s.headFrame p with
  | some f => match f.pay with
    | .vote l k r v => (s.takeVote p f l k r v).popFrame p
    | .voteMore l k r ps => (s.takeMore p f l k r ps).popFrame p
    | _ => s
  | none => s

def execVoteFrame (pkg : Nat) (s : State) : Host.Outcome State Fault Refusal :=
  event (okPkg pkg) s fun s => s.voteFrame pkg

/-- A package has processed the notice that released some pages: its home has the acknowledgement with the package's ACK of that visit
(R68, R348). -/
def State.ackPages (s : State) (p home visit : Nat) (ppns : List Nat) : State :=
  s.modPkg home fun x => x.mapPools fun q =>
    { q with releasing := q.releasing.map fun r =>
        if (ppns.contains r.ppn) then { r with waiting := r.waiting.map fun n => if n == (p, none) then (p, some visit) else n } else r }

/-- The packages whose acknowledgement of a frame a package does not have. -/
def State.unacked (s : State) (p d visit : Nat) : List (Nat × Option Nat) :=
  ((s.starHosts d).filter fun q => q != p && decide (Tab.get (s.pkg p).acks 0 q < visit)).map fun q => (q, some visit)

/-- A page of a LAST COMMIT frame becomes current on the package: its home outside the launch rewrites its PTE and releases
the old page, once for a page that two packages list; any other package follows, and acknowledges the page that the notice
released or that its own table named (R350, R354, R66, R68). -/
def State.takePage (s : State) (p : Nat) (f : Frame) (l k : Nat) (h : Shadow) : State :=
  if p == f.src then s
  else if h.home == p then
    let s := s.flipRelease l k f.dom h (s.unacked p f.dom f.visit)
    if (Tab.find s.launches l).isNone then s.commitPassed l fun q => q == p else s
  else (s.flipPeer p f.dom h).ackPages p h.home f.visit [h.old, ptePa (s.entryOf p f.dom (h.vpn * 65536))]

/-- The pages of a sender's list of which the last frame has not come are kept (R345, R347). -/
def State.keepPages (s : State) (p : Nat) (f : Frame) (l k : Nat) (pages : List Shadow) : State :=
  s.modPkg p fun x => { x with listing := Tab.put x.listing (f.src, l, k) (Tab.get x.listing [] (f.src, l, k) ++ pages) }

/-- The LAST COMMIT frame of a commit is processed, with the pages of the frames before it. -/
def State.takeCommit (s : State) (p : Nat) (f : Frame) (l k : Nat) (pages : List Shadow) : State :=
  let pages := Tab.get (s.pkg p).listing [] (f.src, l, k) ++ pages
  let s := s.modPkg p fun x => { x with listing := Tab.del x.listing (f.src, l, k) }
  let s := if (s.pkg p).hosts f.dom then pages.foldl (fun s h => s.takePage p f l k h) s else s
  let y := s.lpkg l p
  if (s.launch l).pkgs.contains p && y.phase == .committed && y.sstep == k + 1 then
    (s.modLpkg l p fun z => { z with notices := z.notices ++ [f.src] }).afterNotices l p
  else s

def State.commitFrame (s : State) (p : Nat) : State :=
  match s.headFrame p with
  | some f => match f.pay with
    | .commit l k pages => (if f.last then s.takeCommit p f l k pages else s.keepPages p f l k pages).popFrame p
    | .notice pages => (s.modPkg p fun x =>
        { x with stale := x.stale.filter fun e => !(e.1 == f.src && pages.any fun g => g.2 == e.2.1 / 1024) }).popFrame p
    | _ => s
  | none => s

def execCommitFrame (pkg : Nat) (s : State) : Host.Outcome State Fault Refusal :=
  event (okPkg pkg) s fun s => s.commitFrame pkg

/-- A BCAST frame writes the local Broadcast Table (R75). -/
def State.bcastFrame (s : State) (p : Nat) : State :=
  match s.headFrame p with
  | some f => match f.pay with
    | .bcast _ _ es => (if (s.pkg p).hosts f.dom then s.applyBst p f.dom es else s).popFrame p
    | _ => s
  | none => s

def execBcastFrame (pkg : Nat) (s : State) : Host.Outcome State Fault Refusal :=
  event (okPkg pkg) s fun s => s.bcastFrame pkg

/-! ### Spares (R353) -/

/-- The spare's hardware under the failed package's number, with the failed package's tables and pages as firmware and the
partner restore them, its queues and its completions (R353; log entry 48). -/
def Pkg.takeOver (old sp : Pkg) : Pkg :=
  { old with boot := sp.boot, fuses := sp.fuses, stacksOut := sp.stacksOut, bar := sp.bar, harvest := sp.harvest, ports := sp.ports, paths := sp.paths, pairs := sp.pairs, hbmStacks := sp.hbmStacks,
             banks := sp.banks, power := sp.power, drain := .none, image := none, rx := sp.rx, lastRx := sp.lastRx, tx := [], txHeld := [], ack := sp.ack, acks := sp.acks, listing := sp.listing, failed := false,
             spare := false, stale := [], ckpts := sp.ckpts, streams := sp.streams, doms := Vector.ofFn fun d => { old.dom d.val with bt := (sp.dom d.val).bt } }

/-- A schedule as firmware may announce it: up to 1,024 entries, whose reserved bits are 0 (R4, R344). -/
def legalSched (sched : List (BitVec 32)) : List (BitVec 32) := (sched.take 1024).map fun e => e &&& 0x7FF

/-- Firmware announces a schedule through a member that takes part; without another one, the schedule in force anew, eight rounds
ahead, so that the entries of the package that was failed are used again (R353, R357; log entry 60). -/
def State.announceSched (s : State) (f : Nat) (sched : Option (Nat × List (BitVec 32))) : State :=
  match s.alive.find? fun q => q != f with
  | some q => s.modPkg q fun x => { x with announce := some ((sched.map fun e => (e.1, legalSched e.2)).getD (s.star.visit + 8 * roundOf s.star.sched, s.star.sched)) }
  | none => s

/-- A spare has come for a launch that waited: one that lost a page of which firmware has no other copy has a launch fault (R353). -/
def State.spareCame (s : State) (l : Nat) (lost : Bool) : State :=
  (if lost then s.modLaunch l fun x => { x with fault := some (x.fault.getD 0x80) } else s).goOn l

/-- A spare package takes over a failed package's number, and firmware rewrites the pawn schedule; launches that waited for it go on,
and a parked one that lost a page of which firmware has no other copy ends with 0x80 (R353). A launch of the failed package alone keeps its
tiles and tasks and runs on (log entry 96). -/
def State.takeOver (s : State) (f : Nat) (sp : Spare) : State :=
  if !(s.pkg f).failed || !(s.pkg sp.pkg).spare then s
  else
    let s := s.setPkg f ((s.pkg f).takeOver (s.pkg sp.pkg))
    let s := { s with pkgs := Tab.del s.pkgs sp.pkg, star := { s.star with members := s.star.members.filter fun q => q != sp.pkg } }
    let s := s.announceSched f sp.sched
    s.launches.foldl (fun s e =>
      let x := s.launch e.1
      if !x.pkgs.contains f || x.lp == [] then s
      else if x.lp.all fun y => y.2.phase == .waitSpare then s.spareCame e.1 (sp.lost.contains e.1)
      else if sp.lost.contains e.1 then (s.unqueue e.1).endLaunch e.1 0x80
      else s) s

def execSpareTakeover (failed : Nat) (spare : Spare) (s : State) : Host.Outcome State Fault Refusal :=
  event (okPkg failed && okPkg spare.pkg && decide (failed ≠ spare.pkg)) s fun s => s.takeOver failed spare

end Sys2Proof.Machine
end

