-- ==== Sys2Proof/Machine/Power.lean ====
section
/-!
DEFINITION. Grid power steps and the walk (R373-R376), the persistent base (R381), power failure and drain (R377-R379,
R383), and the power block's registers (R375).
-/

namespace Sys2Proof.Machine

open Sys2Proof

/-- Change a package's power block. -/
def State.modPower (s : State) (p : Nat) (f : Power → Power) : State := s.modPkg p fun x => { x with power := f x.power }

/-! ### Levels and walks (R373, R374) -/

/-- The demanded level: the higher of the pins and PWRSTEP (R373). -/
def Power.demanded (w : Power) : BitVec 3 := if w.pins.toNat < w.pwrstep.toNat then w.pwrstep else w.pins

/-- After a change of a demand: a new demanded level deasserts PSTEPACK, and a walk is to begin (R374). -/
def Power.retarget (w : Power) : Power :=
  if w.demanded == w.target then w else { w with target := w.demanded, ack := false, pending := true }

/-- A write of PWRSTEP, ignored from a power failure to the end of the drain (R373, R377). -/
def State.writePwrstep (s : State) (p : Nat) (v : Word) : State :=
  if (s.pkg p).drain != .none then s else s.modPower p fun w => { w with pwrstep := v.setWidth 3 }.retarget

def execPwrstep (pkg : Nat) (v : Word) (s : State) : Host.Outcome State Fault Refusal :=
  event (okPkg pkg) s fun s => s.writePwrstep pkg v

/-- A sample of the pins; two agreeing samples count (R373). -/
def State.samplePins (s : State) (p : Nat) (pins : BitVec 3) : State :=
  s.modPower p fun w => (if w.sample == pins then { w with pins := pins } else { w with sample := pins }).retarget

def execGridstepSample (pkg : Nat) (pins : BitVec 3) (s : State) : Host.Outcome State Fault Refusal :=
  event (okPkg pkg) s fun s => s.samplePins pkg pins

/-- A walk begins at cluster 0; with one towards level 7 the package-wide actions of that level begin (R374, R376:
`Pkg.parksAll`). -/
def State.walkStart (s : State) (p : Nat) : State :=
  if !(s.pkg p).power.pending then s else s.modPower p fun w => { w with walk := some 0, pending := false, park7 := w.park7 || w.target == 7 }

def execWalkStart (pkg : Nat) (s : State) : Host.Outcome State Fault Refusal :=
  event (okPkg pkg) s fun s => s.walkStart pkg

/-- The walk moves its next cluster; after the last, PSTEPACK is asserted, WALKDONE set, and the actions of level 7 end if the level is
another (R374, R375). A walk that a new
level overtakes makes no further step. -/
def State.walkStep (s : State) (p : Nat) : State :=
  let w := (s.pkg p).power
  match (if w.pending then none else w.walk) with
  | none => s
  | some n =>
    let w1 := { w with levels := w.levels.set n w.target }
    if n + 1 < 128 then s.modPower p fun _ => { w1 with walk := some (n + 1) }
    else
      let fire := !w.evt.getLsbD 2
      let s := s.modPower p fun _ => { w1 with walk := none, ack := true, park7 := w.target == 7, evt := w.evt ||| 4 }
      if fire then s.msi p 32 else s

def execWalkStep (pkg : Nat) (s : State) : Host.Outcome State Fault Refusal :=
  event (okPkg pkg) s fun s => s.walkStep pkg

/-! ### The persistent base (R381) -/

/-- PBCMD 1 opens a new dirty set. -/
def State.pbStart (s : State) (p : Nat) : State :=
  s.modPower p fun w => if w.dirtyNew.isSome then w else { w with dirtyNew := some [] }

/-- PBCMD 2 discards the old set. -/
def State.pbCommit (s : State) (p : Nat) : State :=
  match (s.pkg p).power.dirtyNew with
  | some n => let before := (s.pkg p).power.dirtyBytes
    (s.modPower p fun w => { w with dirtyOld := n, dirtyNew := none }).dirtyMoved p before
  | none => s

/-- PBCMD 3 folds the new set into the old one. -/
def State.pbAbandon (s : State) (p : Nat) : State :=
  match (s.pkg p).power.dirtyNew with
  | some _ => s.modPower p fun w => { w with dirtyOld := w.dirty, dirtyNew := none }
  | none => s

def execPbcmdStart (pkg : Nat) (s : State) : Host.Outcome State Fault Refusal :=
  event (okPkg pkg) s fun s => s.pbStart pkg
def execPbcmdCommit (pkg : Nat) (s : State) : Host.Outcome State Fault Refusal :=
  event (okPkg pkg) s fun s => s.pbCommit pkg
def execPbcmdAbandon (pkg : Nat) (s : State) : Host.Outcome State Fault Refusal :=
  event (okPkg pkg) s fun s => s.pbAbandon pkg

/-- PWRSTAT (R375). -/
def Power.stat (w : Power) : Word :=
  BitVec.ofNat 64 (w.pins.toNat + 8 * w.target.toNat + 64 * (w.levels.getLastD 0).toNat + 512 * b01 w.ack +
    1024 * (w.levels.filter fun x => x == w.target).length)

/-- A register of the power block, read (R375); DRAINBUD and DRAINCAP read 0 but for the secure world (R4; log entry 63). -/
def State.powerRead (s : State) (p off : Nat) (secure : Bool) : Word :=
  let w := (s.pkg p).power
  match off with
  | 0x00 => w.pwrstep.zeroExtend 64
  | 0x08 => w.stat
  | 0x10 => (Config.pwrnow s.free).zeroExtend 64
  | 0x18 => if secure then w.drainbud else 0
  | 0x20 => if secure then w.draincap else 0
  | 0x28 => BitVec.ofNat 64 w.dirtyBytes
  | 0x38 => w.evt.zeroExtend 64
  | _ => 0

/-- A register of the power block, written; DRAINBUD and DRAINCAP by the secure world only (R375). A cap raised past DIRTY
ends the ceiling park (R381). -/
def State.powerWrite (s : State) (p off : Nat) (v : Word) (secure : Bool) : State :=
  match off with
  | 0x00 => s.writePwrstep p v
  | 0x18 => if secure then s.modPower p fun w => { w with drainbud := v } else s
  | 0x20 => if secure then s.modPower p fun w => { w with draincap := v, ceilPark := w.ceilPark && decide (v.toNat ≤ w.dirtyBytes) } else s
  | 0x30 => match v.toNat % 4 with
    | 1 => s.pbStart p
    | 2 => s.pbCommit p
    | 3 => s.pbAbandon p
    | _ => s
  | 0x38 => s.modPower p fun w => { w with evt := w.evt &&& ~~~(v.setWidth 3) }
  | _ => s

/-! ### Power failure and drain (R377-R379) -/

/-- A launch on a failing package whose vote has not decided commit aborts with 0x48; a multi-package one sends its abort (R349,
R377). A package whose vote is final leaves the outcome to the order of the frames: its abort, if it comes before the last vote, and
commit otherwise (log entry 77). -/
def State.powerAbort (s : State) (l p : Nat) : State :=
  let x := s.launch l
  if !x.pkgs.contains p then s
  else if s.outcome l p == .open then
    let s := (s.withdrawVote l p).failVote l p 0x48
    (if 1 < x.pkgs.length then s.addTx p [s.abortFrame l p] else s).checkAbort l
  else if (s.lpkg l p).phase == .sent then
    let s := s.modLpkg l p fun z => { z with causes := z.causes ++ [0x48] }
    s.addTx p [s.abortFrame l p]
  else s

/-- PFAIL# has been low for 1 µs: issue stops, no launch starts, and open supersteps abort. -/
def State.powerFail (s : State) (p : Nat) : State :=
  if (s.pkg p).drain != .none then s
  else
    let s := s.launches.foldl (fun s e => s.powerAbort e.1 p) s
    s.modPkg p fun x => { x with drain := .asserted }

def execPfail (pkg : Nat) (s : State) : Host.Outcome State Fault Refusal :=
  event (okPkg pkg) s fun s => s.powerFail pkg

/-- Page numbers of a domain's page tables (R62). -/
def tablePages (m : Memory) (root : Nat) : List Nat :=
  let next := fun base n => (List.range n).filterMap fun j => tableNext (m.nat (base + 8 * j) 8)
  let l1 := next root 128
  (root :: l1 ++ l1.flatMap fun b => next b 4096).map (· / 65536)

/-- A launch as the drain keeps it: its superstep's open work gone, and an abort that has not ended on every package taken as
ended (R378: images are taken after the abort). -/
def Launch.drained (x : Launch) : Launch :=
  Launch.mapLp { x with pends := [], fetchNext := [], shadows := [], found := [] } fun y =>
    if y.phase == .aborting then { y with reexec := y.reexec + 1, causes := [], vote := none, seen := [], lasts := [], req := none } else y

/-- The launches of which a package drains a part: those that run on it and those that wait in its queues. -/
def Launch.drainedOn (x : Launch) (p : Nat) : Bool := x.pkgs.contains p || x.pkg == p

/-- A launch that computed, stood at a barrier or was being parked on a package. -/
def Phase.drains : Phase → Bool
  | .parking => true
  | .held => true
  | .dark => true
  | f => f.runs

/-- What the record of a launch that was not running says of a tile: whether it has retired, its weight, and the area of its image. -/
def Tile.record (x : Tile) : Tile :=
  { Tile.zero with phys := x.phys, wave := x.wave, parked := x.parked, retired := x.retired, weight := x.weight, altSave := x.altSave }

/-- The drain image of a package (R378): header, launch state, page tables with the region table, the images of the package's
tiles of launches that were running, with their comparators (R300), the dirty pages, and the trailer. Of the sizes those of tile images
and of pages are counted (log entry 62). -/
def State.drainImage (s : State) (p : Nat) : DrainImage :=
  let ls := s.launches.filter fun e => e.2.drainedOn p
  let s := ls.foldl (fun s e => s.stashCmps e.1) s
  let x := s.pkg p
  let mine := fun (l t : Nat) => ls.any (fun e => e.1 == l) && s.tilePkg l t == p
  let here := fun (l t : Nat) => mine l t && (s.lpkg l p).phase.drains
  let tabs := dedup ((List.range 4).flatMap fun d => if x.hosts d then tablePages x.hbm (x.dom d).cfg.root else [])
  let tiles := (s.tiles.filter fun e => here e.1.1 e.1.2).map fun e => (e.1, e.2.restore)
  { version := 1, pkg := p, visit := s.star.visit, time := Config.time s.free,
    sizes := [Config.drainSize 0 s.free, Config.drainSize 1 s.free, imageSize * tiles.length, 65536 * x.power.dirty.length],
    trailer := Config.drainTrailer s.free, valid := false, pages := x.power.dirty.map fun n => (n, x.hbm.extract (n * 65536) 65536),
    doms := (List.range 4).map fun d => (d, x.dom d), launches := ls.map fun e => (e.1, e.2.drained), tiles := tiles,
    tasks := s.tasks.filterMap fun e => match e.1 with
      | .thread l t _ => if here l t then some (e.1, e.2.restore) else none
      | .handler _ _ => none,
    records := (s.tiles.filter fun e => mine e.1.1 e.1.2 && !here e.1.1 e.1.2).map fun e => (e.1, e.2.record),
    tables := x.hbm.filter fun c => tabs.contains (c.1 / 65536), regions := x.regions, pools := x.pools, ckpts := x.ckpts, streams := x.streams }

/-- The outcome of a launch's superstep is still to be decided or to be applied on some package that has power. -/
def Launch.unsettled (x : Launch) : Bool :=
  !(x.lp.any fun e => e.2.phase == .dark) && (x.split || x.lp.any fun e => e.2.phase == .sent || e.2.phase == .aborting)

/-- The drain engine starts to write the image, once every decided commit is complete and every other superstep has aborted (R377). Frames
that are ready and not sent by then are not waited for, and no part of the image holds them (R378; log entry 86). -/
def State.drainStart (s : State) (p : Nat) : State :=
  if (s.pkg p).drain != .asserted || s.launches.any fun e => e.2.pkgs.contains p && e.2.unsettled then s
  else (s.modPkg p fun x => { x with drain := .draining, image := some (s.drainImage p) }).tick

def execDrainStart (pkg : Nat) (s : State) : Host.Outcome State Fault Refusal :=
  event (okPkg pkg) s fun s => s.drainStart pkg

/-- A running launch of several packages has lost its part on a package that went dark. -/
def Launch.darken (x : Launch) (p : Nat) : Launch :=
  { x with lp := x.lp.map fun e => if e.1 == p && e.2.phase.drains then (e.1, { e.2 with phase := .dark }) else e }

/-- Nothing of a launch is left outside drain images: it has only one package, or every one of its packages is dark, or it waits
in a queue of the package. -/
def Launch.lostWith (x : Launch) (p : Nat) : Bool :=
  x.pkgs == [p] || (x.pkg == p && x.lp == []) || (x.lp != [] && x.lp.all fun e => e.2.phase == .dark)

/-- A package without power: nothing survives but the fuses, board flash and a completed drain image (R368), and what others sent it is
lost (R338, R339). -/
def State.goDark (s : State) (p : Nat) (d : Drain) (img : Option DrainImage) : State :=
  let s := s.cutOff p
  let off := fun (l t : Nat) => (s.launch l).pkgs == [p] || s.tilePkg l t == p
  let tiles := s.tiles.filter fun e => !off e.1.1 e.1.2
  let tasks := s.tasks.filter (fun e => match e.1 with
    | .thread l t _ => !off l t
    | .handler q _ => q != p)
  let f := (s.pkg p).fuses
  let s := s.setPkg p { Pkg.zero with fuses := f, harvest := f.tiles, drain := d, image := img, failed := (s.pkg p).failed }
  let s := s.mapLaunches fun x => x.darken p
  { s with launches := s.launches.filter fun e => !e.2.lostWith p, tiles := tiles, tasks := tasks,
           handlers := s.handlers.filter fun e => e.1.1 != p, cmps := s.cmps.filter fun e => e.1.1 != p }

/-- The trailer is written and VALID set; bring-up follows if power has come back. -/
def State.drainEnd (s : State) (p : Nat) : State :=
  let x := s.pkg p
  if x.drain != .draining then s
  else s.goDark p (if x.power.back then .none else .off) (x.image.map fun i => { i with valid := true })

def execDrainEnd (pkg : Nat) (s : State) : Host.Outcome State Fault Refusal :=
  event (okPkg pkg) s fun s => s.drainEnd pkg

/-- Input power returns: during a drain it is noted, afterwards bring-up starts; an image without its trailer is ignored. -/
def State.powerReturn (s : State) (p : Nat) : State :=
  match (s.pkg p).drain with
  | .none => s
  | .off => s.goDark p .none ((s.pkg p).image.filter (·.valid))
  | _ => s.modPower p fun w => { w with back := true }

def execPowerReturn (pkg : Nat) (s : State) : Host.Outcome State Fault Refusal :=
  event (okPkg pkg) s fun s => s.powerReturn pkg

/-! ### Restore (R383) -/

/-- A drained launch's record as bring-up restores it: one that ran waits for its images on every package; one that was parked keeps its
place, and one that had ended is not run again. -/
def Launch.undrained (x : Launch) : Launch :=
  if x.lp.any fun e => e.2.phase.drains then
    Launch.mapLp { x with dies := [], move := none, moveHeld := false } fun y => { y with phase := if y.phase.drains then .dark else y.phase, parkReq := false }
  else if x.lp.all fun e => e.2.phase == .parked then { x with dies := [] }
  else x

/-- At power-up with a valid image, firmware restores page tables and launch state, and holds every domain in restore;
drained launches wait for the images. A launch of which another package still has the record keeps that. -/
def State.beginRestore (s : State) (p : Nat) : State :=
  match (s.pkg p).image with
  | none => s
  | some i =>
    if !i.valid then s
    else
      let s := s.modPkg p fun x =>
        { x with hbm := i.tables.foldl (fun m c => m.write c.1 [c.2]) x.hbm, regions := i.regions, pools := i.pools,
                 doms := Vector.ofFn fun d => let y := Tab.get i.doms Dom.zero d.val; { y with restore := y.configured } }
      i.launches.foldl (fun s e => if (Tab.find s.launches e.1).isSome then s else s.setLaunch e.1 e.2.undrained) s

/-- The physical page belongs to a domain (R366). -/
def Pkg.pageOfDom (x : Pkg) (d ppn : Nat) : Bool :=
  x.regions.any fun r => bitAt r.toNat 0 && bits r.toNat 2 2 == d && decide (bits r.toNat 16 24 ≤ ppn) &&
    decide (ppn < bits r.toNat 16 24 + bits r.toNat 40 24)

/-- A package's part of a drained launch's tiles and tasks; of one that was not running what its record says. -/
def State.reviveTiles (s : State) (i : DrainImage) (l : Nat) : State :=
  let s := (i.records.filter fun e => e.1.1 == l).foldl (fun s e => s.setTile e.1.1 e.1.2 { e.2 with parked := true }) s
  let s := (i.tiles.filter fun e => e.1.1 == l).foldl (fun s e => s.setTile e.1.1 e.1.2 { e.2 with saving := false, parked := true }) s
  (i.tasks.filter fun e => slotLaunch e.1 == some l).foldl (fun s e => s.setTask e.1 e.2) s

/-- Write a package's part of a drained launch's tile images; the launch is put ahead of its queue when each of its packages
has written its part (R383, R312). One that was parked has its images among the drained pages; the record of one that had ended is
written now (R36). -/
def State.reviveLaunch (s : State) (i : DrainImage) (p l : Nat) : State :=
  if (s.lpkg l p).phase == .parked || (s.lpkg l p).phase == .failed then s.reviveTiles i l
  else if (s.lpkg l p).phase == .ended then (s.reviveTiles i l).checkEnd l
  else if (s.lpkg l p).phase != .dark then s
  else
    let mine := i.tiles.filter fun e => e.1.1 == l
    let s := s.reviveTiles i l
    let y := (Tab.get i.launches Launch.zero l).onPkg p
    let s := s.modLpkg l p fun z => { z with phase := .parked, sstep := y.sstep, reexec := y.reexec, bt := y.bt }
    let r := mine.foldl (fun (a : State × Bool) e =>
      if a.2 && !e.2.retired then a.1.saveTile l e.1.2 false else a) (s, true)
    if !r.2 then (r.1.modLaunch l fun y => { y with holdTiles := true }).endLaunch l 0x82
    else if (r.1.launch l).lp.all fun e => e.2.phase == .parked then r.1.parked l
    else r.1

/-- RSTGO ends the host part of a domain's restore: drained pages and tile images are written, and its drained launches wait
to be resumed; the image is consumed when no domain is in restore any longer. -/
def State.restoreGo (s : State) (p d : Nat) : State :=
  match (s.pkg p).image with
  | none => s
  | some i =>
    if !((s.pkg p).dom d).restore then s
    else
      let s := s.modPkg p fun x =>
        { x with hbm := i.pages.foldl (fun m g => if x.pageOfDom d g.1 then m.place (g.1 * 65536) 65536 g.2 else m) x.hbm,
                 ckpts := x.ckpts ++ i.ckpts.filter fun c => (s.launch c.launch).dom == d,
                 streams := x.streams ++ i.streams.filter fun r => (slotLaunch r.slot).any fun l => (s.launch l).dom == d }
      let s := i.launches.foldl (fun s e => if e.2.dom == d then s.reviveLaunch i p e.1 else s) s
      let s := s.modDom p d fun y => { y with restore := false }
      if (List.range 4).any fun e => ((s.pkg p).dom e).restore then s else s.modPkg p fun x => { x with image := none }

def execRstgo (pkg dom : Nat) (v : Word) (s : State) : Host.Outcome State Fault Refusal :=
  event (okPkg pkg && okDom dom) s fun s => if bitAt v.toNat 0 then s.restoreGo pkg dom else s

end Sys2Proof.Machine
end

