-- ==== Sys2Proof/Machine/Boot.lean ====
section
/-!
DEFINITION. Bring-up (R368, R369, R371), HBM refresh management (R86, R372) and the configuration of a domain with the size of the shadow pool (R64, R366, R367).
-/

namespace Sys2Proof.Machine

open Sys2Proof

/-! ### Bring-up (R368) -/

/-- The package has power and runs a step of bring-up. -/
def Pkg.booting (x : Pkg) (step : Nat) : Bool := x.boot.step == step && !x.boot.halted && x.drain == .none

/-- The failure code of a step, never 0 (R359; log entry 14). -/
def failCode (step : Nat) : BitVec 8 := BitVec.ofNat 8 (1 + (Config.failCode step).toNat % 255)

/-- Note a failing step. -/
def Pkg.stepFailed (x : Pkg) (bad : Bool) : Pkg := if bad then { x with boot := { x.boot with fail := failCode x.boot.step } } else x

def Pkg.toStep (x : Pkg) (n : Nat) : Pkg := { x with boot := { x.boot with step := n } }

/-- The ROM accepts an image: its key's hash equals the one in the fuses, its signature verifies, and its security version is at
least the fused minimum (R369). -/
def Fuses.accepts (f : Fuses) (img : RomImage) : Bool :=
  img.keyHash == f.keyHash && img.verified && decide (f.minVersion.toNat ≤ img.version.toNat)

/-- The fused minimum is raised, never lowered (R369). -/
def Fuses.raiseTo (f : Fuses) (v : BitVec 32) : Fuses := if f.minVersion.toNat < v.toNat then { f with minVersion := v } else f

/-- An accepted image runs: its measurement and version are kept for reports (R370), and its firmware raises the fused minimum
as far as it wants. -/
def Pkg.boots (x : Pkg) (img : RomImage) : Pkg :=
  { x with boot := { x.boot with step := 2, measurement := img.measurement, version := img.version }, fuses := x.fuses.raiseTo img.raise }

/-- Step 1: the ROM verifies the Thinte image, or halts (R368, R369). The size of window B comes with it (R358; log entry 55). -/
def State.resetRelease (s : State) (p : Nat) (img : RomImage) (bar : Nat) : State :=
  if !(s.pkg p).booting 1 then s
  else s.modPkg p fun x =>
    let x := { x with bar := bar }
    if x.fuses.accepts img then x.boots img else { x.stepFailed true with boot := { (x.stepFailed true).boot with halted := true } }

def execResetRelease (pkg : Nat) (rel : Release) (s : State) : Host.Outcome State Fault Refusal :=
  event (okPkg pkg && decide (rel.bar ≤ 9)) s fun s => s.resetRelease pkg rel.img rel.bar

/-- Fuse off tiles of a die: in the fuses, which outlast a loss of power, and in the harvest map (R368, R371). -/
def Pkg.fuseOff (x : Pkg) (d : Nat) (m : BitVec 256) : Pkg :=
  { x with harvest := x.harvest.set (d % 8) (x.harvest[d % 8] &&& ~~~m),
           fuses := { x.fuses with tiles := x.fuses.tiles.set (d % 8) (x.fuses.tiles[d % 8] &&& ~~~m) } }
/-- Fuse off a cluster's tiles, or one tile. -/
def Pkg.fuseCluster (x : Pkg) (d c : Nat) : Pkg := x.fuseOff d (0xFFFF#256 <<< (16 * c))
def Pkg.fuseTile (x : Pkg) (t : Nat) : Pkg := x.fuseOff (t / 256) (1#256 <<< (t % 256))

/-- Step 2: wake step 8c + d wakes cluster c of die d, or it is fused off. -/
def State.clusterWake (s : State) (p : Nat) (ok : Bool) : State :=
  if !(s.pkg p).booting 2 then s
  else s.modPkg p fun x =>
    let n := x.boot.woken
    let x := if ok then x else (x.fuseCluster (n % 8) (n / 8)).stepFailed true
    let x := { x with boot := { x.boot with woken := n + 1 } }
    if n + 1 < 128 then x else x.toStep 3

def execClusterWake (pkg : Nat) (ok : Bool) (s : State) : Host.Outcome State Fault Refusal :=
  event (okPkg pkg) s fun s => s.clusterWake pkg ok

/-- Step 3: HBM training in budget mode; a failing stack and its die leave service (stacks 2d and 2d + 1 stand on die d; a
log entry says so). -/
def State.hbmTraining (s : State) (p : Nat) (failed : BitVec 16) : State :=
  if !(s.pkg p).booting 3 then s
  else s.modPkg p fun x =>
    let x := (List.range 16).foldl (fun (x : Pkg) n =>
      if failed.getLsbD n then { x with harvest := x.harvest.set (n / 2 % 8) 0 } else x) x
    ({ x with stacksOut := failed }.stepFailed (failed != 0)).toStep 4

def execHbmTraining (pkg : Nat) (failed : BitVec 16) (s : State) : Host.Outcome State Fault Refusal :=
  event (okPkg pkg) s fun s => s.hbmTraining pkg failed

/-- Step 4: every SRAM is zeroed and tested; failing tiles are fused off. -/
def State.sramInit (s : State) (p : Nat) (failed : List Nat) : State :=
  if !(s.pkg p).booting 4 then s
  else s.modPkg p fun x => ((failed.foldl (fun (x : Pkg) t => x.fuseTile t) x).stepFailed (failed != [])).toStep 5

def execSramInitialisation (pkg : Nat) (failed : List Nat) (s : State) : Host.Outcome State Fault Refusal :=
  event (okPkg pkg && failed.all fun t => decide (t < 2048)) s fun s => s.sramInit pkg failed

/-- Usable tiles of the package. -/
def Pkg.usableAll (x : Pkg) : Nat := (List.range 8).foldl (fun n d => n + x.usableCount d) 0

/-- Steps 5 to 7: optical training marks failing lanes; the census publishes the maps and writes the pairing table; every
stack switches to tracker mode; then the restore of R383, if there is a drain image. Firmware forms the star with its first
schedule (R344). -/
def State.opticalTraining (s : State) (p : Nat) (failed : List (Nat × Nat)) (pairing : List (Nat × BitVec 64)) (members : List Nat)
    (sched : List (BitVec 32)) : State :=
  if !(s.pkg p).booting 5 then s
  else
    let s := failed.foldl (fun s e => s.modPort p e.1 fun y => y.setLane e.2 { Lane.zero with mode := .failed }) s
    let s := s.modPkg p fun x =>
      let x := x.stepFailed (failed != [])
      let low := decide (x.usableAll < 1984)
      { x with pairs := pairing.foldl (fun t e => Tab.put t e.1 (e.2 &&& pairMask)) x.pairs,
               hbmStacks := (List.range 16).foldl (fun t n => Tab.put t n { Tab.get t Stack.zero n with trk := true }) x.hbmStacks,
               boot := { x.boot with step := 8, degraded := low } }
    let s := if members == [] || s.star.members != [] then s else { s with star := { Star.zero with members := members, sched := legalSched sched } }
    s.beginRestore p

def execOpticalTraining (pkg : Nat) (failed : List (Nat × Nat)) (pairing : List (Nat × BitVec 64)) (members : List Nat) (sched : List (BitVec 32))
    (s : State) : Host.Outcome State Fault Refusal :=
  event (okPkg pkg && (failed.all fun e => okLane e.1 e.2) && (pairing.all fun e => decide (e.1 < 2048)) && members.all okPkg) s
    fun s => s.opticalTraining pkg failed pairing members sched

/-- BOOTSTAT (R359). -/
def Boot.word (b : Boot) : Word := BitVec.ofNat 64 (b.step + 16 * b.fail.toNat + 4096 * b01 b.degraded)

/-! ### HBM refresh management (R86, R372) -/

/-- One activation in tracker mode: 8 counters by the Misra-Gries scheme. Row 0 has no row below it, and a bank no last row
(log entry 64). -/
def RowTrack.track (b : RowTrack) (thr row : Nat) : RowTrack :=
  let hit := b.rows.any fun e => e.1 == row
  let rows :=
    if hit then b.rows.map fun e => if e.1 == row then (e.1, e.2 + 1) else e
    else if b.rows.length < 8 then b.rows ++ [(row, 1)]
    else (b.rows.map fun e => (e.1, e.2 - 1)).filter fun e => e.2 != 0
  if rows.any fun e => e.1 == row && decide (thr ≤ e.2) then
    { b with rows := rows.filter fun e => e.1 != row, directed := (if row == 0 then [] else [row - 1]) ++ [row + 1] ++ b.directed }
  else { b with rows := rows }

/-- One activation in budget mode. -/
def RowTrack.budget (b : RowTrack) (level : Nat) : RowTrack :=
  if level ≤ b.acts + 1 then { b with acts := b.acts + 1 - level, commands := b.commands + 1 } else { b with acts := b.acts + 1 }

def State.activate (s : State) (p stack bank row : Nat) : State :=
  s.modPkg p fun x =>
    let st := Tab.get x.hbmStacks .zero stack
    let b := Tab.get x.banks .zero (stack, bank)
    { x with banks := Tab.put x.banks (stack, bank) (if b.tracker then b.track st.thr.toNat row else b.budget st.level.toNat) }

def execActivate (pkg stack bank row : Nat) (s : State) : Host.Outcome State Fault Refusal :=
  event (okPkg pkg && decide (stack < 16)) s fun s => s.activate pkg stack bank row

/-- A change of mode takes effect in each bank at its next refresh (R372). The rows that the bank tracks and its activation count are kept
through it (log entry 88). -/
def State.bankRefresh (s : State) (p stack bank : Nat) : State :=
  s.modPkg p fun x =>
    { x with banks := Tab.put x.banks (stack, bank) { Tab.get x.banks .zero (stack, bank) with tracker := (Tab.get x.hbmStacks .zero stack).trk } }

def execBankRefresh (pkg stack bank : Nat) (s : State) : Host.Outcome State Fault Refusal :=
  event (okPkg pkg && decide (stack < 16)) s fun s => s.bankRefresh pkg stack bank

/-! ### Domains (R366, R367) -/

/-- Launches of a domain on a package, running, parked or queued (R367). -/
def State.domBusy (s : State) (p d : Nat) : Bool :=
  s.launches.any fun e => e.2.dom == d && (e.2.pkg == p || e.2.pkgs.contains p)

/-- A configuration gives whole dies, stacks and a network-on-chip plane that no other domain has, and a page-table root aligned to a level
(R62, R367). -/
def Pkg.cfgOk (x : Pkg) (d : Nat) (c : DomCfg) : Bool :=
  c.root % 65536 == 0 && (List.range 4).all fun e => e == d || !x.hosts e ||
    ((x.dom e).cfg.dies &&& c.dies == 0 && (x.dom e).cfg.hbmStacks &&& c.hbmStacks == 0 && (x.dom e).cfg.plane != c.plane)

/-- The fields of a region entry; the other bits are reserved and read 0 (R366, R4). -/
def regionMask : BitVec 64 := 0xFFFFFFFFFFFF000F

/-- The visits of a domain in a schedule: the length of the round, and the places of its entries in it with their packages; nothing for a
domain without visits. -/
def visitsOf (sched : List (BitVec 32)) (d : Nat) : List (Nat × Nat) :=
  let v := sched.filter entryValid
  match (v.zipIdx.filter fun e => entryDom e.1 == d).map fun e => (e.2, entryPkg e.1) with
  | [] => []
  | own => (v.length, 0) :: own

/-- A schedule leaves the visits of every domain as they are that has a launch, running, parked or queued, on some package (R367). -/
def State.schedOk (s : State) (sched : List (BitVec 32)) : Bool :=
  let now := (s.star.next.map (·.2)).getD s.star.sched
  (List.range 4).all fun d => visitsOf sched d == visitsOf now d || !s.launches.any fun e => e.2.dom == d

/-- Firmware creates or changes a domain, while it has no running, parked or queued launch. A schedule that it announces with
it waits for a PAWN frame of the package. -/
def State.configure (s : State) (p d : Nat) (c : DomCfg) : State :=
  if s.domBusy p d || !(s.pkg p).cfgOk d c || (s.pkg p).boot.step < 8 || !((c.sched.map fun e => s.schedOk (legalSched e.2)).getD true) then s
  else s.modPkg p fun x =>
    let own := (c.regions.filter fun r => bits r.toNat 2 2 == d % 4).map fun r => r &&& regionMask
    { x.setDom d { x.dom d with configured := true, cfg := c } with
        announce := match c.sched with
          | some e => some (e.1, legalSched e.2)
          | none => x.announce,
        regions := ((x.regions.filter fun r => bits r.toNat 2 2 != d % 4) ++ own).take 32,
        partner := match c.partner with
          | some q => Tab.put x.partner d q
          | none => Tab.del x.partner d,
        pools := match c.poolSize with
          | some n => (x.modPool d fun q => q.resize n).pools
          | none => x.pools,
        spare := c.spare }

def execDomainConfiguration (pkg dom : Nat) (cfg : DomCfg) (s : State) : Host.Outcome State Fault Refusal :=
  event (okPkg pkg && okDom dom) s fun s => s.configure pkg dom cfg

end Sys2Proof.Machine
end

