-- ==== Sys2Proof/Machine/Hash.lean ====
section
/-!
DEFINITION. SHAKE256, which the attestation report names (R370): the sponge of FIPS 202 over the permutation of 25
lanes (log entry 67).
-/

namespace Sys2Proof.Machine

open Sys2Proof

/-- Lane (x, y) of a permutation state stands at index x + 5y. -/
def lane (a : List Word) (x y : Nat) : Word := a.getD (x % 5 + 5 * (y % 5)) 0

/-- A state from its lanes. -/
def lanes (f : Nat → Nat → Word) : List Word := (List.range 25).map fun i => f (i % 5) (i / 5)

/-- Rotation offsets by index. -/
def keccakRot : List Nat := [0, 1, 62, 28, 27, 36, 44, 6, 55, 20, 3, 10, 43, 25, 39, 41, 45, 15, 21, 8, 18, 2, 61, 56, 14]

/-- Round constants. -/
def keccakRc : List Word :=
  [0x0000000000000001, 0x0000000000008082, 0x800000000000808A, 0x8000000080008000, 0x000000000000808B, 0x0000000080000001,
   0x8000000080008081, 0x8000000000008009, 0x000000000000008A, 0x0000000000000088, 0x0000000080008009, 0x000000008000000A] ++
  [0x000000008000808B, 0x800000000000008B, 0x8000000000008089, 0x8000000000008003, 0x8000000000008002, 0x8000000000000080,
   0x000000000000800A, 0x800000008000000A, 0x8000000080008081, 0x8000000000008080, 0x0000000080000001, 0x8000000080008008]

/-- One round. -/
def keccakRound (a : List Word) (rc : Word) : List Word :=
  let c := (List.range 5).map fun x => (List.range 5).foldl (fun w y => w ^^^ lane a x y) 0
  let d := (List.range 5).map fun x => c.getD ((x + 4) % 5) 0 ^^^ (c.getD ((x + 1) % 5) 0).rotateLeft 1
  let t := lanes fun x y => (lane a x y ^^^ d.getD x 0).rotateLeft (keccakRot.getD (x + 5 * y) 0)
  let b := lanes fun x y => lane t (x + 3 * y) x
  lanes fun x y => (lane b x y ^^^ (~~~(lane b (x + 1) y) &&& lane b (x + 2) y)) ^^^ (if x == 0 && y == 0 then rc else 0)

/-- The permutation. -/
def keccakF (a : List Word) : List Word := keccakRc.foldl keccakRound a

/-- The rate of SHAKE256 in bytes. -/
def shakeRate : Nat := 136

/-- A message with its padding: a whole number of blocks. -/
def shakePad (m : List Byte) : List Byte :=
  let k := shakeRate - m.length % shakeRate
  if k == 1 then m ++ [0x9F] else m ++ [0x1F] ++ List.replicate (k - 2) 0 ++ [0x80]

/-- Absorb one block. -/
def shakeAbsorb (a : List Word) (b : List Byte) : List Word :=
  keccakF (a.zipIdx.map fun e => if e.2 < 17 then e.1 ^^^ BitVec.ofNat 64 (leNat ((b.drop (8 * e.2)).take 8)) else e.1)

/-- The first `n` bytes, at most one block, of SHAKE256 of a message. -/
def shake256 (m : List Byte) (n : Nat) : List Byte :=
  let p := shakePad m
  let a := (chunks shakeRate (p.length + 1) p).foldl shakeAbsorb (List.replicate 25 0)
  (a.flatMap fun w => natLe 8 w.toNat).take (min n shakeRate)

end Sys2Proof.Machine
end

