-- ==== Sys2Proof/Machine/HostIf.lean ====
section
/-!
DEFINITION. What the host and the board do to a package: window A (R331, R358-R360, R372, R375), window B (R78, R79, R364),
attestation (R370) and the sideband (R384).
-/

namespace Sys2Proof.Machine

open Sys2Proof

/-! ### Domain page (R360, R364, R386) -/

/-- A write of WBSEL: the aperture now serves this domain (R364). -/
def State.writeWbsel (s : State) (p d : Nat) (v : Word) : State :=
  (s.modDom p d fun x => { x with wbsel := v }).modPkg p fun x => { x with wbdom := d }

def execWbsel (pkg dom : Nat) (v : Word) (s : State) : Host.Outcome State Fault Refusal :=
  event (okPkg pkg && okDom dom) s fun s => s.writeWbsel pkg dom v

/-- A write of EVTAIL, clamped (R360). -/
def State.writeEvtail (s : State) (p d : Nat) (v : Word) : State :=
  s.modDom p d fun x => { x with evtail := min x.evhead (max (x.evhead - 4096) v.toNat) }

def execEvtail (pkg dom : Nat) (v : Word) (s : State) : Host.Outcome State Fault Refusal :=
  event (okPkg pkg && okDom dom) s fun s => s.writeEvtail pkg dom v

/-- QSTAT (R360). -/
def Queue.stat (q : Queue) : Word := BitVec.ofNat 64 (q.count % 128 + q.refused.toNat * 2 ^ 16 + q.badva.toNat * 2 ^ 48)

/-- A register of a domain page, read; the write-only ones read 0 (R360, R386). -/
def State.domRead (s : State) (p d off : Nat) : Word :=
  let x := (s.pkg p).dom d
  let head := fun q => (x.queue q).entries.head?.map s.launch
  if off < 0x80 then (if off % 16 == 8 then (x.queue (off / 16)).stat else 0)
  else if 0x200 ≤ off ∧ off < 0x280 then
    match head ((off - 0x200) / 16) with
    | some l => if off % 16 == 0 then l.id else l.va
    | none => 0
  else match off with
    | 0x100 => x.wbsel
    | 0x108 => BitVec.ofNat 64 x.evhead
    | 0x110 => BitVec.ofNat 64 x.evtail
    | 0x118 => x.evlost.zeroExtend 64
    | _ => 0

/-- A register of a domain page, written. -/
def State.domWrite (s : State) (p d off : Nat) (v : Word) : State :=
  if off < 0x80 then (if off % 16 == 0 then s.push p d (off / 16) v else s)
  else match off with
    | 0x100 => s.writeWbsel p d v
    | 0x110 => s.writeEvtail p d v
    | 0x120 => if bitAt v.toNat 0 then s.restoreGo p d else s
    | _ => s

/-! ### Device block, refresh registers, ports, debug mirror -/

/-- A register of the device block, read (R359). -/
def Pkg.devRead (x : Pkg) (off : Nat) : Word :=
  match off with
  | 0x000 => BitVec.ofNat 64 (leNat partName)
  | 0x008 => 1
  | 0x010 => x.boot.word
  | 0x100 => x.nonce[0]
  | 0x108 => x.nonce[1]
  | 0x110 => x.nonce[2]
  | 0x118 => x.nonce[3]
  | _ => 0

/-- ATTGO starts a report (R370). -/
def State.writeAttgo (s : State) (p : Nat) (va : Word) : State := s.modPkg p fun x => { x with attPend := some va }

def execAttgo (pkg : Nat) (va : Word) (s : State) : Host.Outcome State Fault Refusal :=
  event (okPkg pkg) s fun s => s.writeAttgo pkg va

/-- A register of the device block, written. -/
def State.devWrite (s : State) (p off : Nat) (v : Word) : State :=
  match off with
  | 0x100 => s.modPkg p fun x => { x with nonce := x.nonce.set 0 v }
  | 0x108 => s.modPkg p fun x => { x with nonce := x.nonce.set 1 v }
  | 0x110 => s.modPkg p fun x => { x with nonce := x.nonce.set 2 v }
  | 0x118 => s.modPkg p fun x => { x with nonce := x.nonce.set 3 v }
  | 0x120 => s.writeAttgo p v
  | _ => s

/-- A stack's refresh registers (R372), which the secure world alone reads (R4; log entry 63); a value outside THR's or LEVEL's range is not taken. -/
def Pkg.stackRead (x : Pkg) (off : Nat) (secure : Bool) : Word :=
  let st := Tab.get x.hbmStacks .zero (off / 64)
  if !secure then 0
  else match off % 64 with
  | 0 => BitVec.ofNat 64 (b01 st.trk)
  | 8 => st.thr.zeroExtend 64
  | 16 => st.level.zeroExtend 64
  | _ => 0

def Stack.write (st : Stack) (off : Nat) (v : Word) : Stack :=
  match off with
  | 0 => { st with trk := bitAt v.toNat 0 }
  | 8 => if v.toNat % 65536 == 0 then st else { st with thr := v.setWidth 16 }
  | 16 => if v.toNat % 65536 == 0 then st else { st with level := v.setWidth 16 }
  | _ => st

/-- A port's registers (R331). -/
def Port.lanemap (x : Port) : Nat := (List.range 64).foldl (fun n i => n + b01 ((x.lane i).mode == .active) * 2 ^ i) 0
def Port.retrains (x : Port) : Nat :=
  x.count.toNat + x.retraining * 2 ^ 32 + x.failedLanes * 2 ^ 40 + x.last.toNat * 2 ^ 48 + b01 x.lv * 2 ^ 54 +
    b01 (x.failedLanes != 0) * 2 ^ 63

def Port.read (x : Port) (off : Nat) (secure : Bool) : Word :=
  match off with
  | 0x00 => x.corrsym.zeroExtend 64
  | 0x08 => x.uncorr.zeroExtend 64
  | 0x10 => BitVec.ofNat 64 x.lanemap
  | 0x18 => if secure then BitVec.ofNat 64 (x.thr.toNat + x.minlanes.toNat * 2 ^ 32) else 0
  | 0x20 => BitVec.ofNat 64 x.retrains
  | _ => 0

def State.portWrite (s : State) (p port off : Nat) (v : Word) (secure : Bool) : State :=
  match off with
  | 0x18 =>
    if secure then s.modPort p port fun y =>
      { y with thr := v.setWidth 32, minlanes := if bits v.toNat 32 6 == 0 then y.minlanes else BitVec.ofNat 6 (bits v.toNat 32 6) }
    else s
  | 0x20 => if bitAt v.toNat 63 then s.clrfail p port else s
  | _ => s

/-- The domain of a physical tile's die (R367). -/
def Pkg.domOfTile (x : Pkg) (t : Nat) : Option Nat := (List.range 4).find? fun d => x.hosts d && (x.dom d).cfg.dies.getLsbD (physDie t)

/-- The debug mirror of a tile (R358, R300). -/
def Cmps.read (c : Cmps) (off : Nat) : Word :=
  if off == 0 then c.hbrk
  else if 0x40 ≤ off ∧ off < 0x80 then (if off % 16 == 0 then c.pc[(off - 0x40) / 16 % 4] else c.sval[(off - 0x40) / 16 % 4])
  else 0

def Cmps.write (c : Cmps) (off : Nat) (v : Word) : Cmps :=
  if off == 0 then { c with hbrk := v &&& hbrkMask }
  else if 0x40 ≤ off ∧ off < 0x80 then
    (if off % 16 == 0 then { c with pc := c.pc.set ((off - 0x40) / 16 % 4) v } else { c with sval := c.sval.set ((off - 0x40) / 16 % 4) v })
  else c

/-- The mirror of a tile is open to the host: its domain is in DEBUG mode (R358, R367). -/
def Pkg.mirrorOpen (x : Pkg) (t : Nat) : Bool :=
  match x.domOfTile t with
  | some d => (x.dom d).cfg.debug
  | none => false

/-! ### Window A (R358) -/

/-- What a naturally aligned 8-byte read of window A returns, to the host or to the secure world. A field that only the secure
world may read (SRW, R4) reads 0 for the host (log entry 63). -/
def State.windowA (s : State) (p off : Nat) (secure : Bool) : Word :=
  let x := s.pkg p
  if off < 0x1000 then x.devRead off
  else if off < 0x1400 then x.stackRead (off - 0x1000) secure
  else if 0x10000 ≤ off ∧ off < 0x50000 then s.domRead p (off / 0x10000 - 1) (off % 0x10000)
  else if 0x100000 ≤ off ∧ off < 0x100700 then (x.port ((off - 0x100000) / 64)).read (off % 64) secure
  else if 0x200000 ≤ off ∧ off < 0x200100 then s.powerRead p (off - 0x200000) secure
  else if 0x300000 ≤ off ∧ off < 0x340000 then
    (if x.mirrorOpen ((off - 0x300000) / 128) then (s.cmp p ((off - 0x300000) / 128)).read (off % 128) else 0)
  else 0

/-- A naturally aligned 8-byte write of window A, by the host or by the secure world. -/
def State.writeA (s : State) (p off : Nat) (v : Word) (secure : Bool) : State :=
  if off < 0x1000 then s.devWrite p off v
  else if off < 0x1400 then
    (if secure then s.modPkg p fun x =>
      { x with hbmStacks := Tab.put x.hbmStacks ((off - 0x1000) / 64) ((Tab.get x.hbmStacks .zero ((off - 0x1000) / 64)).write (off % 64) v) } else s)
  else if 0x10000 ≤ off ∧ off < 0x50000 then s.domWrite p (off / 0x10000 - 1) (off % 0x10000) v
  else if 0x100000 ≤ off ∧ off < 0x100700 then s.portWrite p ((off - 0x100000) / 64) (off % 64) v secure
  else if 0x200000 ≤ off ∧ off < 0x200100 then s.powerWrite p (off - 0x200000) v secure
  else if 0x300000 ≤ off ∧ off < 0x340000 then
    (let t := (off - 0x300000) / 128
     if (s.pkg p).mirrorOpen t then s.setCmp p t ((s.cmp p t).write (off % 128) v) else s)
  else s

/-- The launch whose logical tile runs on a physical tile. -/
def State.launchAt (s : State) (p t : Nat) : Option Nat :=
  (s.launches.find? fun e => e.2.dies.contains (p, physDie t)).map (·.1)

/-- The log of an access that is not a naturally aligned 8-byte one (R358). -/
def State.logBadAccess (s : State) (p off : Nat) : State :=
  if 0x10000 ≤ off ∧ off < 0x50000 then s.logEvent p (off / 0x10000 - 1) 3 0 0 (natLe 8 off)
  else
    match (if 0x300000 ≤ off ∧ off < 0x340000 then s.launchAt p ((off - 0x300000) / 128) else none) with
    | some l => s.logEvent p (s.launch l).dom 3 0 0 (natLe 8 off)
    | none => s.modPkg p fun x => { x with secLog := x.secLog ++ [{ offset := off }] }

/-- A read of window A: the bytes it returns, all ones unless it is a naturally aligned 8-byte one, which is logged (R358). -/
def State.registerRead (s : State) (p off size : Nat) (secure : Bool) : State :=
  if size == 8 && off % 8 == 0 then (s.modPkg p fun x => { x with hostData := natLe 8 (s.windowA p off secure).toNat }).tick
  else (s.modPkg p fun x => { x with hostData := List.replicate size 0xFF }).logBadAccess p off

/-- A write of window A. -/
def State.registerWrite (s : State) (p off size : Nat) (v : Word) (secure : Bool) : State :=
  if size == 8 && off % 8 == 0 then s.writeA p off v secure else s.logBadAccess p off

def execRegisterWrite (pkg offset size : Nat) (v : Word) (secure : Bool) (s : State) : Host.Outcome State Fault Refusal :=
  event (okPkg pkg && decide (offset < 2 ^ 24) && decide (1 ≤ size)) s fun s => s.registerWrite pkg offset size v secure

/-! ### Window B (R78, R79, R364) -/

/-- The VA behind an offset of window B (R364). -/
def State.apertureVa (s : State) (p off : Nat) : Nat := ((((s.pkg p).dom (s.pkg p).wbdom).wbsel).toNat + off) % 2 ^ 64

/-- A page that window B may reach (R364, R366). -/
def State.aperturePage (s : State) (p va : Nat) : Option Page :=
  let d := (s.pkg p).wbdom
  if !isGlob va then none
  else match s.xlateDom p d va with
    | some g => if ptePeer g.pte || pteSec g.pte || !s.physOk g d then none else some g
    | none => none

/-- A refused window B access is logged in the log of the domain that the aperture serves (R364, R365 type 3). -/
def State.logRefused (s : State) (p va : Nat) : State := s.logEvent p (s.pkg p).wbdom 3 0 0 (natLe 8 va)

/-- An access lies within window B, which is 2^bar GiB long (R358). -/
def Pkg.inB (x : Pkg) (off size : Nat) : Bool := decide (off + size ≤ 2 ^ (30 + x.bar))

/-- A host read: committed bytes, or all ones. -/
def State.readB (s : State) (p off size : Nat) : State :=
  let va := s.apertureVa p off
  if !(s.pkg p).inB off size then s
  else if (List.range size).all fun j => (s.aperturePage p (va + j)).isSome then
    s.modPkg p fun x => { x with hostData := s.directRead p x.wbdom va size }
  else (s.modPkg p fun x => { x with hostData := List.replicate size 0xFF }).logRefused p va

def execWindowBRead (pkg offset size : Nat) (s : State) : Host.Outcome State Fault Refusal :=
  event (okPkg pkg && decide (1 ≤ size ∧ size ≤ 8)) s fun s => s.readB pkg offset size

/-- A launch of the domain runs: from its start until its completion record is written (R78). -/
def State.domRuns (s : State) (d : Nat) : Bool := s.launches.any fun e => e.2.dom == d && e.2.lp != [] && !e.2.dead

/-- The lines that a write of `n` bytes at offset `o` of a page touches, with their bytes as they stood (R79). -/
def oldLines (m : Memory) (p ppn o n : Nat) : List (Nat × Nat × Memory) :=
  (List.range ((o + n - 1) / 64 - o / 64 + 1)).map fun j => (p, ppn * 1024 + o / 64 + j, m.extract (ppn * 65536 + (o / 64 + j) * 64) 64)

/-- Write bytes of one page in place; the page is dirty, and other packages that host the domain get a notice and may see old
lines until then (R79, R380). -/
def State.hostWritePage (s : State) (p va : Nat) (g : Page) (bs : List Byte) : State :=
  let d := (s.pkg p).wbdom
  let o := va % 65536
  let old := oldLines (s.pkg p).hbm p g.ppn o bs.length
  let s := (s.modPkg p fun x => { x with hbm := x.hbm.write (g.ppn * 65536 + o) bs }).markDirty p g.ppn
  if s.sharedDom p d then
    let s := (s.starHosts d).foldl (fun s q => if q == p then s else s.modPkg q fun x => { x with stale := x.stale ++ old }) s
    s.addTx p [frameOf d p true (.notice [(va / 65536, g.ppn)])]
  else s

/-- A host write may be applied to a page: not while a launch of the domain runs and the page is writable, but always in
restore (R78, R383). -/
def State.hostMayWrite (s : State) (p : Nat) (g : Page) : Bool :=
  ((s.pkg p).dom (s.pkg p).wbdom).restore || !(pteW g.pte && s.domRuns (s.pkg p).wbdom)

/-- Write bytes through window B, page by page. -/
def State.writePages (s : State) (p : Nat) : List (Nat × List Byte) → State
  | [] => s
  | (va, bs) :: rest =>
    (match s.aperturePage p va with
     | some g => if s.hostMayWrite p g then s.hostWritePage p va g bs else s.logRefused p va
     | none => s.logRefused p va).writePages p rest

def State.writeB (s : State) (p off : Nat) (bs : List Byte) : State :=
  if (s.pkg p).inB off bs.length then s.writePages p (runs (withAddrs (s.apertureVa p off) bs)) else s

def execWindowBWrite (pkg offset : Nat) (bytes : List Byte) (s : State) : Host.Outcome State Fault Refusal :=
  event (okPkg pkg && decide (1 ≤ bytes.length ∧ bytes.length ≤ 64)) s fun s => s.writeB pkg offset bytes

/-! ### Attestation (R370) -/

/-- SHAKE256 with 64 bytes of output. -/
def shake64 (bs : List Byte) : List Byte := shake256 bs 64

/-- Bytes 0x000 to 0x14F of the device information page. -/
def State.devInfoBytes (s : State) (p : Nat) : List Byte := (List.range 0x150).map fun j => (s.pkg p).devInfo p j

/-- What the report says of a domain: its dies (1 byte), stacks (2), region entries and visits in the schedule (8 and 4 bytes each,
in their order); the layout under the hash is the model's (log entry 7). -/
def State.domBytes (s : State) (p d : Nat) : List Byte :=
  let x := s.pkg p
  let c := (x.dom d).cfg
  natLe 1 c.dies.toNat ++ natLe 2 c.hbmStacks.toNat ++
    ((x.regions.filter fun r => bitAt r.toNat 0 && bits r.toNat 2 2 == d).flatMap fun r => natLe 8 r.toNat) ++
    ((s.star.sched.filter fun e => entryValid e && entryPkg e == p && entryDom e == d).flatMap fun e => natLe 4 e.toNat)

/-- The report (R370) without its signature. -/
def State.reportBody (s : State) (p : Nat) : List Byte :=
  let x := s.pkg p
  let n := fun j => natLe 8 (x.nonce[j % 4]).toNat
  natLe 4 0x00010001 ++ natLe 4 x.wbdom ++ n 0 ++ n 1 ++ n 2 ++ n 3 ++ partName ++ natLe 4 1 ++ natLe 4 x.boot.version.toNat ++
    natLe 64 x.boot.measurement.toNat ++ shake64 (s.devInfoBytes p) ++ shake64 (s.domBytes p x.wbdom) ++
    (List.range 1952).map fun j => Config.identityKey p x.boot.measurement j

/-- The report with the signature of the device identity key; key and signature are free values (log entry 7). -/
def State.report (s : State) (p : Nat) : List Byte :=
  let b := s.reportBody p
  b ++ (List.range 3309).map fun j => Config.signature p (s.pkg p).boot.measurement b j

/-- Every byte of a range has a translation. -/
def State.mapped (s : State) (p d va n : Nat) : Bool :=
  (List.range (n / 65536 + 2)).all fun j => (s.xlateDom p d (min (va + 65536 * j) (va + n - 1))).isSome

/-- Firmware writes the report, logs event type 9 and signals vector 33; one that has nowhere to go is not written (R363). -/
def State.attest (s : State) (p : Nat) : State :=
  let x := s.pkg p
  match x.attPend with
  | none => s
  | some va =>
    let r := s.report p
    let done := s.modPkg p fun y => { y with attPend := none }
    if s.mapped p x.wbdom va.toNat r.length then
      ((done.directWrite p x.wbdom va.toNat r).logEvent p x.wbdom 9 0 0 (natLe 8 va.toNat)).msi p 33
    else done

def execAttestationReport (pkg : Nat) (s : State) : Host.Outcome State Fault Refusal :=
  event (okPkg pkg) s fun s => s.attest pkg

/-! ### Sideband (R384) -/

/-- The sideband works until the end of a drain. -/
def Pkg.sideband (x : Pkg) : Bool := x.drain != .off

/-- Only PWRSTEP is writable. -/
def execI3cPrivateWrite (pkg : Nat) (addr : BitVec 16) (v : Word) (s : State) : Host.Outcome State Fault Refusal :=
  event (okPkg pkg) s fun s => if (s.pkg pkg).sideband && addr == 0 then s.writePwrstep pkg v else s

/-- PWRSTAT, PWRNOW, DIRTY, PWREVT and BOOTSTAT are readable; any other address reads zeros. -/
def State.sidebandRead (s : State) (p addr : Nat) : Word :=
  match addr with
  | 0x08 => s.powerRead p 0x08 false
  | 0x10 => s.powerRead p 0x10 false
  | 0x28 => s.powerRead p 0x28 false
  | 0x38 => s.powerRead p 0x38 false
  | 0x1000 => (s.pkg p).boot.word
  | _ => 0

def execI3cPrivateRead (pkg : Nat) (addr : BitVec 16) (s : State) : Host.Outcome State Fault Refusal :=
  event (okPkg pkg) s fun s =>
    if (s.pkg pkg).sideband then (s.modPkg pkg fun x => { x with hostData := natLe 8 (s.sidebandRead pkg addr.toNat).toNat }).tick else s

end Sys2Proof.Machine
end

