-- ==== Sys2Proof/Machine/Matrix.lean ====
section
/-!
DEFINITION. The matrix array: descriptors, operands, accumulation, requests and their start and completion (R40, R94, R98,
R112, R113, R119, R256-R276).
-/

namespace Sys2Proof.Machine

open Sys2Proof

/-! ### Operand descriptors (R260-R262) -/

def dBase (w0 : Word) : Nat := bits w0.toNat 0 21
def dRpitch (w0 : Word) : Nat := bits w0.toNat 32 16
def dTpitch (w1 : Word) : Int := sint 16 (bits w1.toNat 0 16)
def dFmt (w1 : Word) : BitVec 3 := w1.extractLsb' 16 3
def dScale (w1 : Word) : Nat := bits w1.toNat 19 2
def dRot (w1 : Word) : Nat := bits w1.toNat 21 3
def dTr (w1 : Word) : Bool := w1.getLsbD 24
def dSp (w1 : Word) : Bool := w1.getLsbD 25
def dSpn (w1 : Word) : Bool := w1.getLsbD 26
def dPi (w1 : Word) : Bool := w1.getLsbD 27

/-- Where an operand descriptor stands. -/
inductive DRole where
  | dense | sparse | dest
deriving DecidableEq, Repr

/-- The descriptor's fields by R260: reserved bits, excluded values and combinations, and the alignment that the format's
class asks for. A register that holds no valid format has the class of its 32 bits (log entry 65). -/
def descOk (role : DRole) (w0 w1 : Word) (fmt : BitVec 32) : Bool :=
  bits w0.toNat 21 11 == 0 && bits w0.toNat 48 16 == 0 && bits w1.toNat 28 36 == 0 && decide (dScale w1 < 2) &&
    (dSp w1 || !dSpn w1) && !(dTr w1 && dScale w1 == 1) && !(dTr w1 && dSp w1) && (dSp w1 == (role == .sparse)) &&
    (match fmtClass fmt with
      | .c16 => dBase w0 % 2 == 0 && dRpitch w0 % 2 == 0
      | .c32 => role != .dest || (dBase w0 % 4 == 0 && dRpitch w0 % 4 == 0)
      | _ => true)

/-- start(i) (R262). -/
def rowStart (w0 w1 : Word) (i : Nat) : Nat := dBase w0 + i * dRpitch w0 + 32 * (i * dRot w1 % 8)

/-- K (R263). -/
def WClass.k : WClass → Nat
  | .c16 => 32
  | .c4 => 128
  | _ => 64

/-- N of a sparse operand (R265). -/
def dN (w1 : Word) : Nat := if dSpn w1 then 8 else 4

/-- The bytes of a stored row of an operand (R263-R265). -/
def rowLen (c : WClass) (w1 : Word) : Nat :=
  if dTr w1 then 64 * c.bits / 8
  else if dSp w1 then c.k * dN w1 / 16 * c.bits / 8 + (if dScale w1 == 1 then c.k / 32 else 0)
  else c.k * c.bits / 8 + (if dScale w1 == 1 then c.k / 32 else 0)

/-- The rows that an operand's request reads, metadata included (R263-R265). -/
def operandRanges (c : WClass) (w0 w1 : Word) : List Range :=
  let rows := (List.range (if dTr w1 then c.k else 64)).map fun i =>
    { lo := rowStart w0 w1 i, hi := rowStart w0 w1 i + rowLen c w1 - 1 : Range }
  let mrow := dBase w0 + 64 * dRpitch w0
  rows ++ (if dSp w1 then [{ lo := mrow, hi := mrow + 64 * (c.k * dN w1 / 32) - 1 }] else [])

/-- The footprint: the range from the lowest to the highest byte (R269). -/
def footprint (rs : List Range) : Range :=
  match rs with
  | [] => { lo := 0, hi := 0 }
  | r :: l => l.foldl (fun a q => { lo := min a.lo q.lo, hi := max a.hi q.hi }) r

/-- A format that is invalid or, in the 16-bit class, scaled (R94, R267). -/
def multBad (w1 : Word) (fmt : BitVec 32) : Bool := !fmtValid fmt || (fmtClass fmt == .c16 && dScale w1 == 1)

/-- A format that may be a multiplicand, with its scale mode (R94, R263). -/
def multOk (w1 : Word) (fmt : BitVec 32) : Bool := !multBad w1 fmt && fmtClass fmt != .c32

/-! ### Operand values (R263-R266) -/

/-- A block of 32 positions: the scale exponent, none for a scale byte of 0xFF, and the values with their positions. -/
structure MBlock where
  scale : Option Int
  vals : List (Nat × FVal)

/-- Element `k` of a row of codes that starts at a byte. -/
def codeAt (m : Nat → Nat) (c : WClass) (base k : Nat) : Nat :=
  match c with
  | .c32 => m (base + 4 * k) + 256 * m (base + 4 * k + 1) + 65536 * m (base + 4 * k + 2) + 16777216 * m (base + 4 * k + 3)
  | .c16 => m (base + 2 * k) + 256 * m (base + 2 * k + 1)
  | .c8 => m (base + k)
  | .c4 => m (base + k / 2) / 16 ^ (k % 2) % 16

/-- The value of a code; a NaN of a 16-bit format may be signalling. -/
def valueOf (fmt : BitVec 32) (code : Nat) : FVal := fdecode (fmtOf fmt) (fmtKind fmt != 0) code

def scaleOf (b : Nat) : Option Int := if b == 255 then none else some ((b : Int) - 127)

/-- Block `b` of row `i` of a captured operand. -/
def MOperand.block (o : MOperand) (i b : Nat) : MBlock :=
  let m := fun a => (Memory.get o.bytes a).toNat
  let c := fmtClass o.fmt
  let st := rowStart o.word0 o.word1
  if dTr o.word1 then
    { scale := some 0, vals := (List.range 32).map fun t => (t, valueOf o.fmt (codeAt m c (st (32 * b + t)) i)) }
  else if dSp o.word1 then
    let n := dN o.word1
    let mrow := dBase o.word0 + 64 * dRpitch o.word0 + i * (c.k * n / 32)
    { scale := if dScale o.word1 == 1 then scaleOf (m (st i + c.k * n / 16 * c.bits / 8 + b)) else some 0,
      vals := (List.range (2 * n)).map fun q =>
        let slot := 2 * b * n + q
        (16 * (q / n) + codeAt m .c4 mrow slot, valueOf o.fmt (codeAt m c (st i) slot)) }
  else if dScale o.word1 == 1 then
    let len := 32 * c.bits / 8 + 1
    { scale := scaleOf (m (st i + b * len + len - 1)),
      vals := (List.range 32).map fun t => (t, valueOf o.fmt (codeAt m c (st i + b * len) t)) }
  else { scale := some 0, vals := (List.range 32).map fun t => (t, valueOf o.fmt (codeAt m c (st i) (32 * b + t))) }

/-- Every row of an operand, as blocks. -/
def MOperand.rows (o : MOperand) : List (List MBlock) :=
  (List.range 64).map fun i => (List.range ((fmtClass o.fmt).k / 32)).map (o.block i)

/-- The rows of MMAV's A: 64-byte rows of the captured registers, in B's format without scales (R271). -/
def vecRows (bs : List Byte) (fmt : BitVec 32) : List (List MBlock) :=
  let c := fmtClass fmt
  (List.range 64).map fun i =>
    let row := (bs.drop (64 * i)).take 64
    let m := fun a => (row.getD a 0).toNat
    (List.range (c.k / 32)).map fun b =>
      { scale := some 0, vals := (List.range 32).map fun t => (t, valueOf fmt (codeAt m c 0 (32 * b + t))) }

/-! ### Accumulation (R119) -/

/-- The block value and its flags. A scale byte of 0xFF makes the value NaN, and NV is raised by the unscaled products all the same (log
entry 89). -/
def blockSum (a b : MBlock) : FVal × FFlags :=
  let ps := a.vals.map fun e => fvMul e.2 (b.vals.getD e.1 (e.1, .num false 0 0)).2
  let vs := ps.map (·.1)
  let pinf := vs.contains (.inf false)
  let ninf := vs.contains (.inf true)
  let fl := ps.foldl (fun f e => f ||| e.2) (if pinf && ninf then FFlags.nv else 0)
  match a.scale, b.scale with
  | some sa, some sb =>
    if vs.any FVal.isNan || (pinf && ninf) then (.nan false, fl)
    else if pinf then (.inf false, fl)
    else if ninf then (.inf true, fl)
    else
      let t := exactSum vs
      if t.1 == 0 then (.num (vs != [] && vs.all fun v => match v with | .num n m _ => n && m == 0 | _ => false) 0 0, fl)
      else (.num (decide (t.1 < 0)) t.1.natAbs (t.2 + sa + sb), fl)
  | _, _ => (.nan false, fl)

/-- One element over its blocks: the code and the flags so far. -/
def accumulate : List MBlock → List MBlock → Nat × FFlags → Nat × FFlags
  | a :: as, b :: bs, (acc, fl) =>
    let s := blockSum a b
    let r := fvRound fp32 .rne 0 (fvAdd .rne (fd fp32 acc) s.1)
    accumulate as bs (r.1, fl ||| s.2 ||| r.2)
  | _, _, r => r

/-- acc[i][j] of a tile's accumulator as a code (R258). -/
def Tile.accElem (x : Tile) (m i j : Nat) : Nat := Memory.nat x.acc (16384 * m + 4 * (64 * i + j)) 4

/-- The new contents of an accumulator and the OR of the flags (R270). -/
def mmaResult (old : List Nat) (a b : List (List MBlock)) : List Nat × FFlags :=
  let rs := (a.zipIdx).flatMap fun ra => (b.zipIdx).map fun rb => accumulate ra.1 rb.1 (old.getD (64 * ra.2 + rb.2) 0, 0)
  (rs.map (·.1), rs.foldl (fun f r => f ||| r.2) 0)

/-! ### MST (R274) -/

/-- The 64 codes of accumulator row `i`, the scale bytes of its blocks, and the flags. -/
def mstRow (fmt : BitVec 32) (scaled : Bool) (mode : RMode) (r : Nat → Nat) (row : List FVal) : List Nat × List Nat × FFlags :=
  let f := fmtOf fmt
  let scales := if scaled then (chunks 32 2 row).map fun b => scalesel b f else []
  let rs := row.zipIdx.map fun e =>
    let b := scales.getD (e.2 / 32) 127
    if scaled && b == 255 then (f.nanCode.getD 0, if e.1.isSig then FFlags.nv else 0)
    else fencode f mode (r e.2) (if scaled then e.1.scale (127 - (b : Int)) else e.1)
  (rs.map (·.1), scales, rs.foldl (fun a e => a ||| e.2) 0)

/-- Pairs of nibbles, low first. -/
def nibbles : List Nat → List Byte
  | a :: b :: l => BitVec.ofNat 8 (a % 16 + 16 * (b % 16)) :: nibbles l
  | _ => []

/-- The stored bytes of some codes (R98). -/
def packCodes (c : WClass) (cs : List Nat) : List Byte :=
  match c with
  | .c32 => cs.flatMap (natLe 4)
  | .c16 => cs.flatMap (natLe 2)
  | .c8 => cs.flatMap (natLe 1)
  | .c4 => nibbles cs

/-- The bytes of a destination row: blocks of 32 codes each followed by its scale byte, or 64 codes (R112, R274). -/
def packRow (c : WClass) (codes scales : List Nat) : List Byte :=
  match scales with
  | [s0, s1] => packCodes c (codes.take 32) ++ natLe 1 s0 ++ packCodes c (codes.drop 32) ++ natLe 1 s1
  | _ => packCodes c codes

/-- The rows that MST writes. -/
def mstRanges (fmt : BitVec 32) (w0 w1 : Word) : List Range :=
  let len := 64 * (fmtClass fmt).bits / 8 + (if dScale w1 == 1 then 2 else 0)
  (List.range 64).map fun i => { lo := rowStart w0 w1 i, hi := rowStart w0 w1 i + len - 1 }

/-! ### Issue (R256, R257, R260, R267-R269) -/

/-- Put a request into the task's matrix queue. -/
def State.pushReq (s : State) (acc : Nat) (op : MOp) (fetch : List Range) (store : Option Range) : State :=
  (s.modTask s.cur fun t =>
    { t with mreq := t.mreq ++ [{ acc := acc, op := op, fetch := fetch, store := store, started := false, age := s.free }] }).tick

/-- The request would need more ranges than the task may hold (R269). -/
def Task.rangeFull (t : Task) (fetch store : Nat) : Bool :=
  decide (8 < (t.mreq.map fun m => m.fetch.length).foldl (· + ·) 0 + fetch) ||
    decide (4 < (t.mreq.filter fun m => m.store.isSome).length + store)

/-- A descriptor pair's words and the format register they name. -/
structure DPair where
  reg : Reg
  w0 : Word
  w1 : Word
  fmt : BitVec 32

def State.dpair (s : State) (r : Reg) : DPair :=
  { reg := r, w0 := s.rx r, w1 := s.rx (r + 1), fmt := s.fmtReg (dFmt (s.rx (r + 1))) }

def fmtTrap (w1 : Word) : Act := .trap 0x0D ((dFmt w1).zeroExtend 64)

/-- Post-increment: word0 with its BASE moved; the new value has distance 1 (R261). -/
def State.postInc (s : State) (d : DPair) : State :=
  if dPi d.w1 then
    let b := ((dBase d.w0 : Int) + dTpitch d.w1) % (2 ^ 21 : Int)
    let w := BitVec.ofNat 64 (d.w0.toNat / 2 ^ 21 * 2 ^ 21 + b.toNat)
    (s.wx d.reg w).modTask s.cur fun t => { t with haz := t.haz.filter fun h => h.reg != { file := .x, num := d.reg.toNat } }
  else s

/-- The operand's bytes as loads of the issuing task at its issue point (R268). -/
def State.capture (s : State) (d : DPair) (rs : List Range) : MOperand :=
  { word0 := d.w0, word1 := d.w1, fmt := d.fmt,
    bytes := rs.foldl (fun m r => Memory.write m r.lo (s.ownBytes s.curL s.curT s.curI r.lo (r.hi + 1 - r.lo))) [] }

/-- Checks 5 and 6 of R267 for the rows that a request reads, with one footprint over all of them (R269). -/
def State.readCheck (s : State) (rs : List Range) : Option (BitVec 8 × Nat) :=
  match lowestOutside s.curLaunch.desc.tmSize [footprint rs] with
  | some a => some (0x03, a)
  | none => (s.curTile.lowestBad (fun _ o => !o.isEngine) rs).map fun a => (0x04, a)

/-- MMA and MMAS (R267, R270). Of two descriptors that fail one check HTVAL reports A's, which is looked at first (log entry 76). -/
def mmaReq (i : Instr) (roleA : DRole) (mk : MOperand → MOperand → MOp) (md : Acc) (rs1 rs2 : Reg) (s : State) :
    Host.Outcome State Fault Refusal :=
  issue i s fun s =>
    let a := s.dpair rs1
    let b := s.dpair rs2
    if !descOk roleA a.w0 a.w1 a.fmt then operandFault a.w1
    else if !descOk .dense b.w0 b.w1 b.fmt then operandFault b.w1
    else if multBad a.w1 a.fmt then fmtTrap a.w1
    else if multBad b.w1 b.fmt || fmtClass a.fmt != fmtClass b.fmt then fmtTrap b.w1
    else if fmtClass a.fmt == .c32 then fmtTrap a.w1
    else
      let ra := operandRanges (fmtClass a.fmt) a.w0 a.w1
      let rb := operandRanges (fmtClass b.fmt) b.w0 b.w1
      let fs := [footprint ra, footprint rb]
      match s.readCheck (ra ++ rb) with
      | some (c, v) => .trap c (BitVec.ofNat 64 v)
      | none =>
        let t := s.task s.cur
        if t.rangesBusy false fs || t.rangeFull 2 0 then .wait
        else
          let s1 := s.pushReq (s.accIndex md) (mk (s.capture a ra) (s.capture b rb)) fs none
          .done (if rs1 == rs2 then s1.postInc a else (s1.postInc a).postInc b)

def execMma (md : Acc) (rs1 rs2 : Reg) (s : State) := mmaReq (.mma md rs1 rs2) .dense .mma md rs1 rs2 s
def execMmas (md : Acc) (rs1 rs2 : Reg) (s : State) := mmaReq (.mmas md rs1 rs2) .sparse .mmas md rs1 rs2 s

/-- The bytes of v(r) to v(r + 15) (R271). -/
def State.v16Bytes (s : State) (r : Reg) : List Byte := (List.range 16).flatMap fun j => vbytes (s.bank.rv (r + BitVec.ofNat 5 j))

def execMmav (md : Acc) (va : Reg) (rs2 : Reg) (s : State) : Host.Outcome State Fault Refusal :=
  issue (.mmav md va rs2) s fun s =>
    let b := s.dpair rs2
    if !descOk .dense b.w0 b.w1 b.fmt then operandFault b.w1
    else if !multOk b.w1 b.fmt then fmtTrap b.w1
    else
      let rb := operandRanges (fmtClass b.fmt) b.w0 b.w1
      let f := footprint rb
      match s.readCheck rb with
      | some (c, v) => .trap c (BitVec.ofNat 64 v)
      | none =>
        let t := s.task s.cur
        if t.rangesBusy false [f] || t.rangeFull 1 0 then .wait
        else .done ((s.pushReq (s.accIndex md) (.mmav (s.v16Bytes va) (s.capture b rb)) [f] none).postInc b)

def execMst (ms : Acc) (rs1 : Reg) (s : State) : Host.Outcome State Fault Refusal :=
  issue (.mst ms rs1) s fun s =>
    let d := s.dpair rs1
    if !descOk .dest d.w0 d.w1 d.fmt then operandFault d.w1
    else if !fmtValid d.fmt || (dScale d.w1 == 1 && fmtKind d.fmt != 0) then fmtTrap d.w1
    else
      let rs := mstRanges d.fmt d.w0 d.w1
      let f := footprint rs
      match lowestOutside s.curLaunch.desc.tmSize [f] with
      | some v => .trap 0x03 (BitVec.ofNat 64 v)
      | none => match s.curTile.lowestBad (fun _ o => o == .own s.curI) rs with
        | some v => .trap 0x04 (BitVec.ofNat 64 v)
        | none =>
          let t := s.task s.cur
          if t.fetchBusy [f] || t.rangeFull 0 1 then .wait
          else
            let b := s.bank
            let s1 := (s.pushReq (s.accIndex ms) (.mst d.w0 d.w1 d.fmt b.rmode b.pipctr b.seq) [] (some f)).postInc d
            .done (if rmodeOf b.rmode == .sr then s1.modBank fun b => b.drew 4096 else s1).advSeq

def execMzero (md : Acc) (s : State) : Host.Outcome State Fault Refusal :=
  issue (.mzero md) s fun s => .done (s.pushReq (s.accIndex md) .zero [] none)

/-- Row and column of MRD and MWR, with the repetition's row (R272, R273). -/
def State.accRow (s : State) (v : Word) : Option Nat :=
  let n := v.toNat
  let it := match (s.task s.cur).rep with
    | some (_, it) => it.toNat
    | none => 0
  let r := bits n 0 6 + it
  if bits n 6 2 != 0 || bits n 16 48 != 0 || 64 < bits n 8 8 * 64 + 64 || 64 ≤ r then none else some r

def execMwr (md : Acc) (vs rs1 : Reg) (s : State) : Host.Outcome State Fault Refusal :=
  issue (.mwr md vs rs1) s fun s =>
    match s.accRow (s.rx rs1) with
      | none => operandFault (s.rx rs1)
      | some r => .done (s.pushReq (s.accIndex md) (.mwr r (s.bank.rv vs)) [] none)

def execMrd (vd : Reg) (ms : Acc) (rs1 : Reg) (s : State) : Host.Outcome State Fault Refusal :=
  issue (.mrd vd ms rs1) s fun s =>
    match s.accRow (s.rx rs1) with
    | none => operandFault (s.rx rs1)
    | some r =>
      let bs := Memory.read s.curTile.acc (16384 * s.accIndex ms + 256 * r) 256
      .done (s.modBank fun b => b.wv vd (vecOf bs))

def execMwait (md : Acc) (s : State) : Host.Outcome State Fault Refusal :=
  issue (.mwait md) s fun s => if s.accIdle md then .done s else .wait

/-! ### Start and completion (R40, R256, R276) -/

/-- The array starts the oldest request of the tile; the operands have been read, so its fetch ranges are released
(R40, R269). Ties go round-robin after the task served last. -/
def State.startMat (s : State) (l t : Nat) : State :=
  let x := s.tile l t
  let heads := (List.range 4).filterMap fun i =>
    match ((s.task (.thread l t i)).mreq.filter fun q => !q.started) with
    | q :: _ => some (q.age, (i + 3 - x.lastMat) % 4, i)
    | [] => none
  match heads with
  | [] => s
  | h :: hs =>
    let best := hs.foldl (fun a b => if b.1 < a.1 || (b.1 == a.1 && b.2.1 < a.2.1) then b else a) h
    let s := s.modTask (.thread l t best.2.2) fun k =>
      { k with mreq := (k.mreq.takeWhile (·.started)) ++ ((k.mreq.dropWhile (·.started)).mapIdx fun n q =>
          if n == 0 then { q with started := true, fetch := [] } else q) }
    s.modTile l t fun x => { x with lastMat := best.2.2 }

def execMatrixRequestStart (l t : Nat) (s : State) : Host.Outcome State Fault Refusal :=
  event true s fun s => s.startMat l t

/-- Replace an accumulator's contents. -/
def Tile.setAcc (x : Tile) (m : Nat) (codes : List Nat) : Tile := { x with acc := x.acc.write (16384 * m) (codes.flatMap (natLe 4)) }

def Tile.accCodes (x : Tile) (m : Nat) : List Nat := (List.range 4096).map fun e => x.accElem m (e / 64) (e % 64)

/-- The rows and flags that MST stores (R274). -/
def mstData (key : Word) (fmt : BitVec 32) (w1 : Word) (rmode : BitVec 3) (ctr : Word) (codes : List Nat) : List (List Byte) × FFlags :=
  let c := fmtClass fmt
  let rows := (List.range 64).map fun i =>
    mstRow fmt (dScale w1 == 1) (rmodeOf rmode) (fun j => srBits key ctr (64 * i + j)) ((codes.drop (64 * i)).take 64 |>.map (fd fp32))
  let fl := rows.foldl (fun a r => a ||| r.2.2) 0
  let bytes :=
    if dTr w1 then (List.range 64).map fun j => packRow c (rows.map fun r => r.1.getD j 0) []
    else rows.map fun r => packRow c r.1 r.2.1
  (bytes, fl)

/-- The effect of a completed request (R270-R274). -/
def State.finishReq (s : State) (l t i : Nat) (q : MReq) : State :=
  let x := s.tile l t
  let k := Slot.thread l t i
  let upd := fun (r : List Nat × FFlags) =>
    (s.modTile l t fun x => x.setAcc q.acc r.1).modTask k fun y => { y with bank := y.bank.raise r.2 }
  match q.op with
  | .zero => s.modTile l t fun x => x.setAcc q.acc (List.replicate 4096 0)
  | .mma a b => upd (mmaResult (x.accCodes q.acc) a.rows b.rows)
  | .mmas a b => upd (mmaResult (x.accCodes q.acc) a.rows b.rows)
  | .mmav a b => upd (mmaResult (x.accCodes q.acc) (vecRows a b.fmt) b.rows)
  | .mwr r v => s.modTile l t fun x => { x with acc := x.acc.write (16384 * q.acc + 256 * r) (vbytes v) }
  | .mst w0 w1 fmt rmode ctr seq =>
    let d := mstData (pipKey (s.launch l).desc.seed t i) fmt w1 rmode ctr (x.accCodes q.acc)
    let s := (d.1.zipIdx).foldl (fun s e =>
      s.addPend l { tile := t, task := i, seq := seq, eff := .tmWrite t true (rowStart w0 w1 e.2) e.1 }) s
    s.modTask k fun y => { y with bank := y.bank.raise d.2 }

/-- The first request of a task, once started, completes (R256). -/
def State.completeMat (s : State) (l t i : Nat) : State :=
  let k := Slot.thread l t i
  match (s.task k).mreq with
  | q :: rest => if q.started then (s.modTask k fun y => { y with mreq := rest }).finishReq l t i q else s
  | [] => s

def execMatrixRequestComplete (l t i : Nat) (s : State) : Host.Outcome State Fault Refusal :=
  event (decide (i < 4)) s fun s => s.completeMat l t i

end Sys2Proof.Machine
end

