-- ==== Sys2Proof/Machine/Sfu.lean ====
section
/-!
DEFINITION. The special-function unit: requests and their completion (R41, R109, R120, R197, R198, R309).
-/

namespace Sys2Proof.Machine

open Sys2Proof

/-- An SFU instruction: one request to the tile's FIFO, not ready while it holds 16 (R41, R198). -/
def sfu (i : Instr) (fn : BitVec 6) (es : FpTy) (vd vs1 vs2 : Reg) (pg : Pg) (s : State) : Host.Outcome State Fault Refusal :=
  issue i s fun s =>
    if 16 ≤ s.curTile.sfu.length then .wait
    else
      let b := s.bank
      let q : SfuReq := { task := s.curI, fn := fn, es := es, vd := vd, a := b.rv vs1, b := b.rv vs2, old := s.vKept vd, act := b.rg pg,
                          rmode := b.rmode, trapen := b.trapen, pc := b.pc, rep := (s.task s.cur).rep }
      .done (s.modCurTile fun x => { x with sfu := x.sfu ++ [q] })

def execVfrcp (es : FpTy) (vd vs1 : Reg) (pg : Pg) (s : State) := sfu (.vfrcp es vd vs1 pg) 0x10 es vd vs1 vs1 pg s
def execVfrsq (es : FpTy) (vd vs1 : Reg) (pg : Pg) (s : State) := sfu (.vfrsq es vd vs1 pg) 0x11 es vd vs1 vs1 pg s
def execVfsqrt (es : FpTy) (vd vs1 : Reg) (pg : Pg) (s : State) := sfu (.vfsqrt es vd vs1 pg) 0x12 es vd vs1 vs1 pg s
def execVfdiv (es : FpTy) (vd vs1 vs2 : Reg) (pg : Pg) (s : State) := sfu (.vfdiv es vd vs1 vs2 pg) 0x13 es vd vs1 vs2 pg s
def execVfexp2 (es : FpTy) (vd vs1 : Reg) (pg : Pg) (s : State) := sfu (.vfexp2 es vd vs1 pg) 0x14 es vd vs1 vs1 pg s
def execVflog2 (es : FpTy) (vd vs1 : Reg) (pg : Pg) (s : State) := sfu (.vflog2 es vd vs1 pg) 0x15 es vd vs1 vs1 pg s
def execVftanh (es : FpTy) (vd vs1 : Reg) (pg : Pg) (s : State) := sfu (.vftanh es vd vs1 pg) 0x16 es vd vs1 vs1 pg s

/-- The elements of a request's result with their flags (R120, R197). -/
def SfuReq.results (q : SfuReq) : List (Option (Nat × FFlags)) :=
  let w := 8 * q.es.size
  (elems (fun k => q.act.getLsbD (q.es.size * k))
    (fun k _ => sfuFn q.fn.toNat q.es (rmodeOf q.rmode).noSr (elt w q.a k) (elt w q.b k)) false (256 / q.es.size) 0 0).1

/-- The register a request writes. -/
def SfuReq.value (q : SfuReq) : Vec :=
  let w := 8 * q.es.size
  let l := q.results
  vbuild w (256 / q.es.size) fun i => match l[i]? with | some (some r) => r.1 | _ => elt w q.old i

/-- Take a class A trap for another slot than the issuing one. -/
def trapAt (s : State) (k : Slot) (cause : BitVec 8) (tval : Word) : State :=
  let c := s.cur
  { takeTrap { s with cur := k } cause tval none with cur := c }

/-- The SFU completes the request at the head of a tile's FIFO (R198, R309): it writes vd and raises its flags, or, when a
flag enabled at issue would be raised, writes nothing and raises 0x0A with HPC at the SFU instruction (R109). -/
def execSfuRequestComplete (l t : Nat) (s : State) : Host.Outcome State Fault Refusal :=
  event true s fun s =>
    match (s.tile l t).sfu with
    | [] => s
    | q :: rest =>
      let s := s.modTile l t fun x => { x with sfu := rest }
      let k := Slot.thread l t q.task
      let fl := orFlags q.results
      if q.trapen &&& fl != 0 then
        trapAt (s.modTask k fun x => { x with bank := { x.bank with pc := q.pc }, rep := q.rep }) k 0x0A (flagsTval fl)
      else s.modTask k fun x => { x with bank := (x.bank.wv q.vd q.value).raise fl }

end Sys2Proof.Machine
end

