-- ==== Sys2Proof/Machine/Agenda.lean ====
section
/-!
DEFINITION. What happens next when the agenda is empty: the next slot that can issue, or an event that the part's own agents
bring about. An agenda may name any event at any place; this order is one of them (log entry 9).
-/

namespace Sys2Proof.Machine

open Sys2Proof

/-- A row of the opcode table that is an event: it has no encoding. -/
def isEvent (i : Instr) : Bool := (encode i).isNone

/-- The outcome of a meaning: the name that the tables below use. -/
abbrev Next := Host.Outcome State Fault Refusal

/-- The first slot of a table that can issue, with its place. -/
def slotFrom (s : State) : Nat → Tab Slot Task → Option (Slot × Nat)
  | _, [] => none
  | n, e :: l => if s.canIssue e.1 then some (e.1, n) else slotFrom s (n + 1) l

/-- The state with the next slot chosen, sought from `wheel` on. -/
def chosen (s : State) : Option State :=
  match slotFrom s s.pace.wheel (s.tasks.drop s.pace.wheel) with
  | some (k, n) => some { s with cur := k, pace := { s.pace with wheel := n + 1, issued := s.pace.issued + 1 } }
  | none => none

/-- A new sweep of the table of slots begins. -/
def State.newSweep (s : State) : State := { s with pace := { s.pace with wheel := 0, mark := s.pace.issued } }

/-- The next slot to issue. A sweep of the table follows another while it issues anything, up to 64 instructions; then the
part's events have their turn. -/
def nextSlot (s : State) : Option State :=
  match chosen s with
  | some t => some t
  | none => if s.pace.issued != s.pace.mark && decide (s.pace.issued < 64) then chosen s.newSweep else none

/-- A slot of the table for which an event stands ready. -/
def someSlot (s : State) (f : Slot → Task → Option Next) : Option Next := s.tasks.findSome? fun e => f e.1 e.2
/-- A logical tile, a launch, a package for which an event stands ready. -/
def someTile (s : State) (f : Nat → Nat → Tile → Option Next) : Option Next := s.tiles.findSome? fun e => f e.1.1 e.1.2 e.2
def someLaunch (s : State) (f : Nat → Launch → Option Next) : Option Next := s.launches.findSome? fun e => f e.1 e.2
def somePkg (s : State) (f : Nat → Pkg → Option Next) : Option Next := s.pkgs.findSome? fun e => f e.1 e.2
def somePart (s : State) (f : Nat → Nat → LPkg → Option Next) : Option Next := someLaunch s fun l x => x.lp.findSome? fun e => f l e.1 e.2

/-- The result is the divider's. -/
def PendRes.isDivide (q : PendRes) : Bool := match q.src with
  | .divide _ => true
  | _ => false

/-- The result is known, or its bytes are there to be served: no divider and no GFAA's home is waited for. -/
def PendRes.isServed (q : PendRes) : Bool := match q.src with
  | .value _ => true
  | .bytes _ _ _ => true
  | _ => false

/-! ### Events of a tile -/

def dueStall (s : State) : Option Next := someSlot s fun k t => if t.stall.isSome then some (execStallExpiry k s) else none

def dueResult (s : State) : Option Next := someSlot s fun k t => (t.pend.findIdx? PendRes.isServed).map fun n => execAccessResult k n s

def dueDivide (s : State) : Option Next := someSlot s fun k t => if t.pend.any PendRes.isDivide then some (execDivideComplete k s) else none

def dueSfu (s : State) : Option Next := someTile s fun l t x => if x.sfu != [] then some (execSfuRequestComplete l t s) else none

def dueMatStart (s : State) : Option Next := someSlot s fun k x => match k with
  | .thread l t _ => if x.mreq.any fun q => !q.started then some (execMatrixRequestStart l t s) else none
  | .handler _ _ => none

def dueMatEnd (s : State) : Option Next := someSlot s fun k x => match k with
  | .thread l t i => if (x.mreq.head?.map (·.started)).getD false then some (execMatrixRequestComplete l t i s) else none
  | .handler _ _ => none

def dueRound (s : State) : Option Next := someTile s fun _ _ x =>
  if x.copies.any fun c => c.ring != [] then some (execCceRound (physPkg x.phys) (physDie x.phys) (physCluster x.phys) s) else none

/-- The first copy of a list that can complete. -/
def readyCopy : List Copy → List Copy → Option Copy
  | _, [] => none
  | before, c :: l => if c.ring == [] && !blockedBy c before then some c else readyCopy (before ++ [c]) l

def dueCopy (s : State) : Option Next := someTile s fun l t x => (readyCopy [] x.copies).map fun c => execCopyComplete l t c.task c.tag s

def dueDelivery (s : State) : Option Next := someSlot s fun k x => match k, x.status with
  | .thread l t i, .frozen r => if !r.delivered && x.pend == [] && !s.trapsGone l t then some (execTrapDelivery l t i s) else none
  | _, _ => none

/-- Firmware kills the task of an escalated trap; an agenda may have it map the page or realign the stream instead. -/
def dueEscalated (s : State) : Option Next := someSlot s fun k x => match k, x.status with
  | .thread l t i, .escalated _ => if s.trapsGone l t then none else some (execEscalatedTrap l t i .kill s)
  | _, _ => none

/-! ### Events of a superstep and of the scheduler -/

def dueWave (s : State) : Option Next := someLaunch s fun l _ => if s.waveDone l then some (execWaveEnd l s) else none

def dueVote (s : State) : Option Next := somePart s fun l p y =>
  if y.phase == .closing && y.causes == [] && s.drained l p then some (execVote l p s) else none

def dueLadder (s : State) : Option Next := somePart s fun l p y =>
  if y.phase == .voted && y.vote.isSome then some (execLadderClose l p s) else none

def dueStage (s : State) : Option Next := someLaunch s fun l _ => if s.stageReady l then some (execStageEnd l s) else none

def dueAbort (s : State) : Option Next := somePart s fun l _ y =>
  if y.causes != [] && (y.phase == .compute || y.phase == .closing) then some (execEarlyAbort l s) else none

def dueSave (s : State) : Option Next := someTile s fun l t x =>
  if x.saving && !(s.launch l).moveHeld && (s.lpkg l (s.tilePkg l t)).phase != .held && decide (t < (s.launch l).desc.ntile) then some (execContextSaveComplete l t .written s) else none

def duePause (s : State) : Option Next := someLaunch s fun l x =>
  if x.lp != [] && x.lp.all fun e => e.2.phase == .paused then some (execCheckpointPauseEnd l s) else none

/-- The scheduler of a package has something to start, or to end for a failed dependence. -/
def State.startDue (s : State) (p d : Nat) : Bool :=
  s.open p d && ((s.firstFailed p d).isSome || (s.mayStart p d && match s.nextLaunch p d with
    | some l => (s.grantFor (s.launch l)).isSome
    | none => false))

def dueStart (s : State) : Option Next := somePkg s fun p _ => (List.range 4).findSome? fun d => if s.startDue p d then some (execLaunchStart p { dom := d, weight := 8 } s) else none

def dueDemand (s : State) : Option Next := someLaunch s fun l x =>
  if x.running && !x.leaving && (s.ask l).isSome then
    some (execPreemptionRequest l s) else none

/-! ### Events of the fabric and of the broadcast plane -/

def duePacket (s : State) : Option Next := s.fabric.zipIdx.findSome? fun e => match e.1.st with
  | .held => none
  | .inFlight => if s.arrivable e.2 e.1 then some (execPacketReceive e.2 s) else none
  | .received => some (execPacketAck e.2 s)
  | .refused _ => some (execPacketRefusal e.2 s)

/-- Firmware has redrawn the paths that a re-run waits for (R338). -/
def duePaths (s : State) : Option Next := someLaunch s fun _ x => x.waitPaths.head?.map fun p => execPathTableRewrite p [] s

/-- Some package has a frame to send, a schedule to announce, a frame that it missed, or a released page that waits for an ACK. -/
def Pkg.wantsVisit (x : Pkg) : Bool :=
  !x.failed && (x.tx != [] || x.announce.isSome || (x.rx.any fun r => r.1.isNone) || (List.range 4).any fun d => (x.pool d).releasing.any fun r => r.waiting != [])

/-- Visits go on while some package wants one, and until an announced schedule is in force. -/
def dueVisit (s : State) : Option Next :=
  if roundOf s.star.sched != 0 && (s.star.next.isSome || s.pkgs.any fun e => e.2.wantsVisit) then some (execVisit s) else none

def dueFrame (s : State) : Option Next := somePkg s fun p _ => (s.headFrame p).map fun f => match f.pay with
  | .pawn _ => execPawnFrame p s
  | .vote _ _ _ _ => execVoteFrame p s
  | .voteMore _ _ _ _ => execVoteFrame p s
  | .commit _ _ _ => execCommitFrame p s
  | .notice _ => execCommitFrame p s
  | .bcast _ _ _ => execBcastFrame p s

/-! ### Events of a package -/

/-- Bring-up goes on, every step a success (R368), with an image that the ROM accepts. -/
def dueBoot (s : State) : Option Next := somePkg s fun p x =>
  if x.booting 1 then
    some (execResetRelease p { img := { keyHash := x.fuses.keyHash, verified := true, version := x.fuses.minVersion, measurement := 0, raise := 0 }, bar := 9 } s)
  else if x.booting 2 then some (execClusterWake p true s)
  else if x.booting 3 then some (execHbmTraining p 0 s)
  else if x.booting 4 then some (execSramInitialisation p [] s)
  else if x.booting 5 then some (execOpticalTraining p [] [] [] [] s)
  else none

def duePower (s : State) : Option Next := somePkg s fun p x =>
  if x.power.pending then some (execWalkStart p s)
  else if x.power.walk.isSome then some (execWalkStep p s)
  else match x.drain with
    | .asserted => some (execDrainStart p s)
    | .draining => some (execDrainEnd p s)
    | _ => none

def dueReport (s : State) : Option Next := somePkg s fun p x => if x.attPend.isSome then some (execAttestationReport p s) else none

/-- Events that take few cycles, and those of supersteps and of the scheduler. Frames and visits, which are fast beside a
superstep (R344), come round after every other kind. -/
def duesSoon : List (State → Option Next) :=
  [dueStall, dueResult, dueDivide, dueSfu, dueDelivery, dueEscalated, dueWave, dueVote, dueLadder, dueStage, dueAbort, dueSave, duePause,
   dueStart, dueDemand, duePacket, duePaths, dueBoot].flatMap fun f => [f, dueFrame, dueVisit]

/-- Events of long operations: matrix requests, copies, power walks, reports. -/
def duesLate : List (State → Option Next) := [dueMatStart, dueMatEnd, dueRound, dueCopy, duePower, dueReport]

/-- The kinds of a list, tried from the one whose turn it is. -/
def inTurn (n : Nat) (fs : List (State → Option Next)) : List (State → Option Next) := fs.drop (n % fs.length) ++ fs.take (n % fs.length)

/-- The part's next event of its own: a quick one before a long one, but in one turn of 64. -/
def nextEvent (s : State) : Option Next :=
  let n := s.pace.turn
  let s1 := { s with pace := { wheel := 0, turn := n + 1, issued := 0, mark := 0 } }
  (if n % 64 == 63 then inTurn (n / 64) duesLate ++ inTurn n duesSoon else inTurn n duesSoon ++ inTurn n duesLate).findSome? fun f => f s1

end Sys2Proof.Machine
end

