-- ==== Sys2Proof/Machine/Vmem.lean ====
section
/-!
DEFINITION. Vector memory forms (R211-R219).
-/

namespace Sys2Proof.Machine

open Sys2Proof

/-- A piece of an access (R211): its effective address, its active bytes as lane and address, and whether its alignment is
checked with no active byte (R213). -/
structure Piece where
  ea : Word
  bytes : List (Nat × Word)
  contiguous : Bool
deriving DecidableEq, Repr

/-- One contiguous piece of `n` bytes governed by a predicate. -/
def onePiece (ea : Word) (n : Nat) (g : Pred) : List Piece :=
  [{ ea := ea, bytes := ((List.range n).filter fun j => g.getLsbD j).map fun j => (j, ea + BitVec.ofNat 64 j), contiguous := true }]

/-- 64 elements of four bytes at addresses of their own. -/
def elemPieces (ea : Nat → Word) (g : Pred) : List Piece :=
  (List.range 64).map fun i =>
    { ea := ea i, contiguous := false,
      bytes := ((List.range 4).filter fun b => g.getLsbD (4 * i + b)).map fun b => (4 * i + b, ea i + BitVec.ofNat 64 b) }

/-- The first failing check of the first failing piece (R214, R215): cause and HTVAL. -/
def State.checkPieces (s : State) (k : Access) (ps : List Piece) : Option (BitVec 8 × Word) :=
  ps.findSome? fun p =>
    if (p.contiguous || p.bytes != []) && p.ea.toNat % 4 != 0 then some (0x02, p.ea)
    else (s.checkBytes s.curL s.curT s.curI k (p.bytes.map fun b => b.2.toNat)).map fun e => (e.1, BitVec.ofNat 64 e.2)

def pieceBytes (ps : List Piece) : List (Nat × Word) := ps.flatMap (·.bytes)

/-- A load form: checks, range interlock, and the load (R214, R216). `post` is the base update of VLDPI. -/
def vload (i : Instr) (dst : RegId) (kind : LoadKind) (base : State → Vec) (ps : State → List Piece) (post : State → State) (s : State) :
    Host.Outcome State Fault Refusal :=
  issue i s fun s =>
    let pcs := ps s
    match s.checkPieces .load pcs with
    | some (c, v) => .trap c v
    | none =>
      let bs := pieceBytes pcs
      if (s.task s.cur).rangeBusy false (s.ownOnly s.curL (bs.map fun b => b.2.toNat)) then .wait
      else .done ((post s).startLoad dst kind (base s) bs)

/-- A store form: checks, range interlock, the bytes in ascending lanes, and one advance of the sequence (R214, R217). -/
def vstore (i : Instr) (src : State → Vec) (ps : State → List Piece) (post : State → State) (s : State) : Host.Outcome State Fault Refusal :=
  issue i s fun s =>
    let pcs := ps s
    match s.checkPieces .store pcs with
    | some (c, v) => .trap c v
    | none =>
      let bs := pieceBytes pcs
      if (s.task s.cur).rangeBusy true (s.ownOnly s.curL (bs.map fun b => b.2.toNat)) then .wait
      else
        let v := src s
        .done ((post s).storeBytes (bs.map fun b => (b.2.toNat, vbyte v b.1))).advSeq

/-- The base update of VLDPI and VSTPI. -/
def bumpBase (rs1 : Reg) (s : State) : State := s.wx rs1 (s.rx rs1 + BitVec.ofNat 64 vlenb)

def execVld (vd rs1 : Reg) (pg : Pg) (s : State) :=
  vload (.vld vd rs1 pg) { file := .v, num := vd.toNat } .vec (fun s => s.vKept vd) (fun s => onePiece (s.rx rs1) 256 (s.bank.rg pg)) id s
def execVldpi (vd rs1 : Reg) (pg : Pg) (s : State) :=
  vload (.vldpi vd rs1 pg) { file := .v, num := vd.toNat } .vec (fun s => s.vKept vd) (fun s => onePiece (s.rx rs1) 256 (s.bank.rg pg))
    (bumpBase rs1) s
def execVlds (vd rs1 rs2 : Reg) (pg : Pg) (s : State) :=
  vload (.vlds vd rs1 rs2 pg) { file := .v, num := vd.toNat } .vec (fun s => s.vKept vd)
    (fun s => elemPieces (fun i => s.rx rs1 + BitVec.ofNat 64 i * s.rx rs2) (s.bank.rg pg)) id s
def execVgath (vd rs1 vi : Reg) (pg : Pg) (s : State) :=
  vload (.vgath vd rs1 vi pg) { file := .v, num := vd.toNat } .vec (fun s => s.vKept vd)
    (fun s => elemPieces (fun i => s.rx rs1 + BitVec.ofNat 64 (elt 32 (s.bank.rv vi) i)) (s.bank.rg pg)) id s
def execPldr (pd : PReg) (rs1 : Reg) (s : State) :=
  vload (.pldr pd rs1) { file := .p, num := pd.toNat } .pred (fun _ => 0) (fun s => onePiece (s.rx rs1) 32 (BitVec.allOnes 256)) id s

def execVst (vs rs1 : Reg) (pg : Pg) (s : State) :=
  vstore (.vst vs rs1 pg) (fun s => s.bank.rv vs) (fun s => onePiece (s.rx rs1) 256 (s.bank.rg pg)) id s
def execVstpi (vs rs1 : Reg) (pg : Pg) (s : State) :=
  vstore (.vstpi vs rs1 pg) (fun s => s.bank.rv vs) (fun s => onePiece (s.rx rs1) 256 (s.bank.rg pg)) (bumpBase rs1) s
def execVsts (vs rs1 rs2 : Reg) (pg : Pg) (s : State) :=
  vstore (.vsts vs rs1 rs2 pg) (fun s => s.bank.rv vs)
    (fun s => elemPieces (fun i => s.rx rs1 + BitVec.ofNat 64 i * s.rx rs2) (s.bank.rg pg)) id s
def execVscat (vs rs1 vi : Reg) (pg : Pg) (s : State) :=
  vstore (.vscat vs rs1 vi pg) (fun s => s.bank.rv vs)
    (fun s => elemPieces (fun i => s.rx rs1 + BitVec.ofNat 64 (elt 32 (s.bank.rv vi) i)) (s.bank.rg pg)) id s
def execPstr (ps : PReg) (rs1 : Reg) (s : State) :=
  vstore (.pstr ps rs1) (fun s => (s.bank.rp ps).zeroExtend 2048) (fun s => onePiece (s.rx rs1) 32 (BitVec.allOnes 256)) id s

end Sys2Proof.Machine
end

