-- ==== Sys2Proof/Machine/Rep.lean ====
section
/-!
DEFINITION. REP: which words repeat, which fields step, and the issue of one repetition (R126, R150-R156, R181).
-/

namespace Sys2Proof.Machine

open Sys2Proof

/-- What a register field of a repeated word holds: a vector register or an accumulator, which may step, or anything else. -/
inductive StepField where
  | no
  | vec (r : Reg)
  | acc (m : Nat)
deriving DecidableEq, Repr

/-- Where the fields of a word's form lie (R151). -/
inductive RepForm where
  | vr | vm
deriving DecidableEq, Repr

/-- The fields that the step bits [25], [24] and [23] name, for each word that REP may repeat (R151). -/
def repFields : Instr → Option (RepForm × StepField × StepField × StepField)
  | .vld vd _ _ => some (.vm, .vec vd, .no, .no)
  | .vldpi vd _ _ => some (.vm, .vec vd, .no, .no)
  | .vst vs _ _ => some (.vm, .vec vs, .no, .no)
  | .vstpi vs _ _ => some (.vm, .vec vs, .no, .no)
  | .vlds vd _ _ _ => some (.vm, .vec vd, .no, .no)
  | .vsts vs _ _ _ => some (.vm, .vec vs, .no, .no)
  | .vgath vd _ vi _ => some (.vm, .vec vd, .no, .vec vi)
  | .vscat vs _ vi _ => some (.vm, .vec vs, .no, .vec vi)
  | .pldr _ _ => some (.vm, .no, .no, .no)
  | .pstr _ _ => some (.vm, .no, .no, .no)
  | .vfadd _ vd vs1 vs2 _ => some (.vr, .vec vd, .vec vs1, .vec vs2)
  | .vfsub _ vd vs1 vs2 _ => some (.vr, .vec vd, .vec vs1, .vec vs2)
  | .vfmul _ vd vs1 vs2 _ => some (.vr, .vec vd, .vec vs1, .vec vs2)
  | .vfma _ vd vs1 vs2 _ => some (.vr, .vec vd, .vec vs1, .vec vs2)
  | .vfnms _ vd vs1 vs2 _ => some (.vr, .vec vd, .vec vs1, .vec vs2)
  | .vfmin _ vd vs1 vs2 _ => some (.vr, .vec vd, .vec vs1, .vec vs2)
  | .vfmax _ vd vs1 vs2 _ => some (.vr, .vec vd, .vec vs1, .vec vs2)
  | .vfabs _ vd vs1 _ => some (.vr, .vec vd, .vec vs1, .no)
  | .vfneg _ vd vs1 _ => some (.vr, .vec vd, .vec vs1, .no)
  | .vfceq _ _ vs1 vs2 _ => some (.vr, .no, .vec vs1, .vec vs2)
  | .vfclt _ _ vs1 vs2 _ => some (.vr, .no, .vec vs1, .vec vs2)
  | .vfcle _ _ vs1 vs2 _ => some (.vr, .no, .vec vs1, .vec vs2)
  | .vfsumr _ vd vs1 _ => some (.vr, .vec vd, .vec vs1, .no)
  | .vfmaxr _ vd vs1 _ => some (.vr, .vec vd, .vec vs1, .no)
  | .vfcvt _ _ vd vs1 _ => some (.vr, .vec vd, .vec vs1, .no)
  | .vfcpys _ vd vs1 vs2 _ => some (.vr, .vec vd, .vec vs1, .vec vs2)
  | .vfrcp _ vd vs1 _ => some (.vr, .vec vd, .vec vs1, .no)
  | .vfrsq _ vd vs1 _ => some (.vr, .vec vd, .vec vs1, .no)
  | .vfsqrt _ vd vs1 _ => some (.vr, .vec vd, .vec vs1, .no)
  | .vfdiv _ vd vs1 vs2 _ => some (.vr, .vec vd, .vec vs1, .vec vs2)
  | .vfexp2 _ vd vs1 _ => some (.vr, .vec vd, .vec vs1, .no)
  | .vflog2 _ vd vs1 _ => some (.vr, .vec vd, .vec vs1, .no)
  | .vftanh _ vd vs1 _ => some (.vr, .vec vd, .vec vs1, .no)
  | .vcvtn vd vs1 _ _ => some (.vr, .vec vd, .vec vs1, .no)
  | .vcvtw vd vs1 _ _ => some (.vr, .vec vd, .vec vs1, .no)
  | .vscale vd vs1 vs2 _ => some (.vr, .vec vd, .vec vs1, .vec vs2)
  | .vbmax vd vs1 _ _ => some (.vr, .vec vd, .vec vs1, .no)
  | .vadd _ vd vs1 vs2 _ => some (.vr, .vec vd, .vec vs1, .vec vs2)
  | .vsub _ vd vs1 vs2 _ => some (.vr, .vec vd, .vec vs1, .vec vs2)
  | .vmul _ vd vs1 vs2 _ => some (.vr, .vec vd, .vec vs1, .vec vs2)
  | .vmulh _ vd vs1 vs2 _ => some (.vr, .vec vd, .vec vs1, .vec vs2)
  | .vand _ vd vs1 vs2 _ => some (.vr, .vec vd, .vec vs1, .vec vs2)
  | .vor _ vd vs1 vs2 _ => some (.vr, .vec vd, .vec vs1, .vec vs2)
  | .vxor _ vd vs1 vs2 _ => some (.vr, .vec vd, .vec vs1, .vec vs2)
  | .vsll _ vd vs1 vs2 _ => some (.vr, .vec vd, .vec vs1, .vec vs2)
  | .vsrl _ vd vs1 vs2 _ => some (.vr, .vec vd, .vec vs1, .vec vs2)
  | .vsra _ vd vs1 vs2 _ => some (.vr, .vec vd, .vec vs1, .vec vs2)
  | .vmin _ vd vs1 vs2 _ => some (.vr, .vec vd, .vec vs1, .vec vs2)
  | .vmax _ vd vs1 vs2 _ => some (.vr, .vec vd, .vec vs1, .vec vs2)
  | .vminu _ vd vs1 vs2 _ => some (.vr, .vec vd, .vec vs1, .vec vs2)
  | .vmaxu _ vd vs1 vs2 _ => some (.vr, .vec vd, .vec vs1, .vec vs2)
  | .viceq _ _ vs1 vs2 _ => some (.vr, .no, .vec vs1, .vec vs2)
  | .viclt _ _ vs1 vs2 _ => some (.vr, .no, .vec vs1, .vec vs2)
  | .vicltu _ _ vs1 vs2 _ => some (.vr, .no, .vec vs1, .vec vs2)
  | .vsel vd vs1 vs2 _ => some (.vr, .vec vd, .vec vs1, .vec vs2)
  | .vperm _ vd vs1 vs2 _ => some (.vr, .vec vd, .vec vs1, .vec vs2)
  | .vslup _ vd vs2 _ _ => some (.vr, .vec vd, .no, .vec vs2)
  | .vsldn _ vd vs2 _ _ => some (.vr, .vec vd, .no, .vec vs2)
  | .vzip _ vd vs1 vs2 _ => some (.vr, .vec vd, .vec vs1, .vec vs2)
  | .vunzip _ vd vs1 vs2 _ => some (.vr, .vec vd, .vec vs1, .vec vs2)
  | .viota _ vd _ => some (.vr, .vec vd, .no, .no)
  | .vdupx _ vd _ _ => some (.vr, .vec vd, .no, .no)
  | .vmvxs _ _ vs2 _ => some (.vr, .no, .no, .vec vs2)
  | .visumr _ vd vs1 _ => some (.vr, .vec vd, .vec vs1, .no)
  | .pwhilelt _ _ _ _ => some (.vr, .no, .no, .no)
  | .plogicAnd _ _ _ => some (.vr, .no, .no, .no)
  | .plogicOr _ _ _ => some (.vr, .no, .no, .no)
  | .plogicXor _ _ _ => some (.vr, .no, .no, .no)
  | .plogicAndn _ _ _ => some (.vr, .no, .no, .no)
  | .pcnt _ _ _ => some (.vr, .no, .no, .no)
  | .pfirst _ _ _ => some (.vr, .no, .no, .no)
  | .vli _ vd _ => some (.vr, .vec vd, .no, .no)
  | .vaddi _ vd _ => some (.vr, .vec vd, .no, .no)
  | .vmuli _ vd _ => some (.vr, .vec vd, .no, .no)
  | .vmaxi _ vd _ => some (.vr, .vec vd, .no, .no)
  | .mma md _ _ => some (.vm, .acc md.toNat, .no, .no)
  | .mrd vd ms _ => some (.vm, .vec vd, .no, .acc ms.toNat)
  | .mwr md vs _ => some (.vm, .acc md.toNat, .no, .vec vs)
  | _ => none

/-- The meanings of the words that REP may repeat. -/
def repExec (i : Instr) (s : State) : Host.Outcome State Fault Refusal :=
  match i with
  | .vld vd rs1 pg => Sys2Proof.Machine.execVld vd rs1 pg s
  | .vldpi vd rs1 pg => Sys2Proof.Machine.execVldpi vd rs1 pg s
  | .vst vs rs1 pg => Sys2Proof.Machine.execVst vs rs1 pg s
  | .vstpi vs rs1 pg => Sys2Proof.Machine.execVstpi vs rs1 pg s
  | .vlds vd rs1 rs2 pg => Sys2Proof.Machine.execVlds vd rs1 rs2 pg s
  | .vsts vs rs1 rs2 pg => Sys2Proof.Machine.execVsts vs rs1 rs2 pg s
  | .vgath vd rs1 vi pg => Sys2Proof.Machine.execVgath vd rs1 vi pg s
  | .vscat vs rs1 vi pg => Sys2Proof.Machine.execVscat vs rs1 vi pg s
  | .pldr pd rs1 => Sys2Proof.Machine.execPldr pd rs1 s
  | .pstr ps rs1 => Sys2Proof.Machine.execPstr ps rs1 s
  | .vfadd es vd vs1 vs2 pg => Sys2Proof.Machine.execVfadd es vd vs1 vs2 pg s
  | .vfsub es vd vs1 vs2 pg => Sys2Proof.Machine.execVfsub es vd vs1 vs2 pg s
  | .vfmul es vd vs1 vs2 pg => Sys2Proof.Machine.execVfmul es vd vs1 vs2 pg s
  | .vfma es vd vs1 vs2 pg => Sys2Proof.Machine.execVfma es vd vs1 vs2 pg s
  | .vfnms es vd vs1 vs2 pg => Sys2Proof.Machine.execVfnms es vd vs1 vs2 pg s
  | .vfmin es vd vs1 vs2 pg => Sys2Proof.Machine.execVfmin es vd vs1 vs2 pg s
  | .vfmax es vd vs1 vs2 pg => Sys2Proof.Machine.execVfmax es vd vs1 vs2 pg s
  | .vfabs es vd vs1 pg => Sys2Proof.Machine.execVfabs es vd vs1 pg s
  | .vfneg es vd vs1 pg => Sys2Proof.Machine.execVfneg es vd vs1 pg s
  | .vfceq es pd vs1 vs2 pg => Sys2Proof.Machine.execVfceq es pd vs1 vs2 pg s
  | .vfclt es pd vs1 vs2 pg => Sys2Proof.Machine.execVfclt es pd vs1 vs2 pg s
  | .vfcle es pd vs1 vs2 pg => Sys2Proof.Machine.execVfcle es pd vs1 vs2 pg s
  | .vfsumr es vd vs1 pg => Sys2Proof.Machine.execVfsumr es vd vs1 pg s
  | .vfmaxr es vd vs1 pg => Sys2Proof.Machine.execVfmaxr es vd vs1 pg s
  | .vfcvt es src vd vs1 pg => Sys2Proof.Machine.execVfcvt es src vd vs1 pg s
  | .vfcpys es vd vs1 vs2 pg => Sys2Proof.Machine.execVfcpys es vd vs1 vs2 pg s
  | .vfrcp es vd vs1 pg => Sys2Proof.Machine.execVfrcp es vd vs1 pg s
  | .vfrsq es vd vs1 pg => Sys2Proof.Machine.execVfrsq es vd vs1 pg s
  | .vfsqrt es vd vs1 pg => Sys2Proof.Machine.execVfsqrt es vd vs1 pg s
  | .vfdiv es vd vs1 vs2 pg => Sys2Proof.Machine.execVfdiv es vd vs1 vs2 pg s
  | .vfexp2 es vd vs1 pg => Sys2Proof.Machine.execVfexp2 es vd vs1 pg s
  | .vflog2 es vd vs1 pg => Sys2Proof.Machine.execVflog2 es vd vs1 pg s
  | .vftanh es vd vs1 pg => Sys2Proof.Machine.execVftanh es vd vs1 pg s
  | .vcvtn vd vs1 f pg => Sys2Proof.Machine.execVcvtn vd vs1 f pg s
  | .vcvtw vd vs1 f pg => Sys2Proof.Machine.execVcvtw vd vs1 f pg s
  | .vscale vd vs1 vs2 pg => Sys2Proof.Machine.execVscale vd vs1 vs2 pg s
  | .vbmax vd vs1 f pg => Sys2Proof.Machine.execVbmax vd vs1 f pg s
  | .vadd es vd vs1 vs2 pg => Sys2Proof.Machine.execVadd es vd vs1 vs2 pg s
  | .vsub es vd vs1 vs2 pg => Sys2Proof.Machine.execVsub es vd vs1 vs2 pg s
  | .vmul es vd vs1 vs2 pg => Sys2Proof.Machine.execVmul es vd vs1 vs2 pg s
  | .vmulh es vd vs1 vs2 pg => Sys2Proof.Machine.execVmulh es vd vs1 vs2 pg s
  | .vand es vd vs1 vs2 pg => Sys2Proof.Machine.execVand es vd vs1 vs2 pg s
  | .vor es vd vs1 vs2 pg => Sys2Proof.Machine.execVor es vd vs1 vs2 pg s
  | .vxor es vd vs1 vs2 pg => Sys2Proof.Machine.execVxor es vd vs1 vs2 pg s
  | .vsll es vd vs1 vs2 pg => Sys2Proof.Machine.execVsll es vd vs1 vs2 pg s
  | .vsrl es vd vs1 vs2 pg => Sys2Proof.Machine.execVsrl es vd vs1 vs2 pg s
  | .vsra es vd vs1 vs2 pg => Sys2Proof.Machine.execVsra es vd vs1 vs2 pg s
  | .vmin es vd vs1 vs2 pg => Sys2Proof.Machine.execVmin es vd vs1 vs2 pg s
  | .vmax es vd vs1 vs2 pg => Sys2Proof.Machine.execVmax es vd vs1 vs2 pg s
  | .vminu es vd vs1 vs2 pg => Sys2Proof.Machine.execVminu es vd vs1 vs2 pg s
  | .vmaxu es vd vs1 vs2 pg => Sys2Proof.Machine.execVmaxu es vd vs1 vs2 pg s
  | .viceq es pd vs1 vs2 pg => Sys2Proof.Machine.execViceq es pd vs1 vs2 pg s
  | .viclt es pd vs1 vs2 pg => Sys2Proof.Machine.execViclt es pd vs1 vs2 pg s
  | .vicltu es pd vs1 vs2 pg => Sys2Proof.Machine.execVicltu es pd vs1 vs2 pg s
  | .vsel vd vs1 vs2 pg => Sys2Proof.Machine.execVsel vd vs1 vs2 pg s
  | .vperm es vd vs1 vs2 pg => Sys2Proof.Machine.execVperm es vd vs1 vs2 pg s
  | .vslup es vd vs2 rs1 pg => Sys2Proof.Machine.execVslup es vd vs2 rs1 pg s
  | .vsldn es vd vs2 rs1 pg => Sys2Proof.Machine.execVsldn es vd vs2 rs1 pg s
  | .vzip es vd vs1 vs2 pg => Sys2Proof.Machine.execVzip es vd vs1 vs2 pg s
  | .vunzip es vd vs1 vs2 pg => Sys2Proof.Machine.execVunzip es vd vs1 vs2 pg s
  | .viota es vd pg => Sys2Proof.Machine.execViota es vd pg s
  | .vdupx es vd rs1 pg => Sys2Proof.Machine.execVdupx es vd rs1 pg s
  | .vmvxs es rd vs2 rs1 => Sys2Proof.Machine.execVmvxs es rd vs2 rs1 s
  | .visumr es vd vs1 pg => Sys2Proof.Machine.execVisumr es vd vs1 pg s
  | .pwhilelt es pd rs1 rs2 => Sys2Proof.Machine.execPwhilelt es pd rs1 rs2 s
  | .plogicAnd pd ps1 ps2 => Sys2Proof.Machine.execPlogicAnd pd ps1 ps2 s
  | .plogicOr pd ps1 ps2 => Sys2Proof.Machine.execPlogicOr pd ps1 ps2 s
  | .plogicXor pd ps1 ps2 => Sys2Proof.Machine.execPlogicXor pd ps1 ps2 s
  | .plogicAndn pd ps1 ps2 => Sys2Proof.Machine.execPlogicAndn pd ps1 ps2 s
  | .pcnt es rd ps1 => Sys2Proof.Machine.execPcnt es rd ps1 s
  | .pfirst es pd ps1 => Sys2Proof.Machine.execPfirst es pd ps1 s
  | .vli es vd imm => Sys2Proof.Machine.execVli es vd imm s
  | .vaddi es vd imm => Sys2Proof.Machine.execVaddi es vd imm s
  | .vmuli es vd imm => Sys2Proof.Machine.execVmuli es vd imm s
  | .vmaxi es vd imm => Sys2Proof.Machine.execVmaxi es vd imm s
  | .mma md rs1 rs2 => Sys2Proof.Machine.execMma md rs1 rs2 s
  | .mrd vd ms rs1 => Sys2Proof.Machine.execMrd vd ms rs1 s
  | .mwr md vs rs1 => Sys2Proof.Machine.execMwr md vs rs1 s
  | _ => .next s

/-- The stride of a stride code (R150). -/
def repStride (code : BitVec 3) : Nat := 2 ^ code.toNat

/-- A stepped field is legal and its last value exists (R151). -/
def StepField.ok (f : StepField) (step : Bool) (last accs : Nat) : Bool :=
  !step || match f with
    | .no => false
    | .vec r => decide (r.toNat + last < 32)
    | .acc m => decide (m + last < accs)

/-- The word of repetition `i`: each stepped field holds its encoded value + i × stride (R151). -/
def repWord (w : IWord) (form : RepForm) (steps : BitVec 3) (add : Nat) : IWord :=
  let put := fun (b : Nat) (pos : Nat) => if steps.getLsbD b then add * 2 ^ pos else 0
  match form with
  | .vr => w + BitVec.ofNat 32 (put 2 7 + put 1 14 + put 0 19)
  | .vm => w + BitVec.ofNat 32 (put 2 7 + put 0 20)

/-- The outcome of REP's own checks: an illegal word, EBREAK as the repeated word, or a repetition to run. -/
inductive RepCheck where
  | illegal (w : IWord)
  | fault (rem : Nat) (it : Nat) (cause : BitVec 8) (tval : Word)
  | ebreak
  | run (rem : Nat) (it : Nat) (i : Instr)
deriving Repr

/-- A word with the coding of one that REP may repeat: VR, VI, VM, MMA, MRD or MWR (R128, R129, R132, R133, R151). -/
def repCoded (w : IWord) : Bool :=
  let op := bits w.toNat 0 7
  op == 0x5B || op == 0x7B || (op == 0x0B && bits w.toNat 12 3 == 7) ||
    (op == 0x2B && bits w.toNat 12 3 == 0 && (bits w.toNat 25 7 == 1 || bits w.toNat 25 7 == 4 || bits w.toNat 25 7 == 5))

/-- REPSTATE does not fit the count (R154). -/
def repStateBad (rem it n : Nat) : Bool := rem != 0 && (decide (64 < rem) || it + rem != n)

/-- A word of a repeatable coding with its operation kept and every operand field 0: what its fields are does not depend
on what they hold. VFCVT has no word with equal types (R131), so the bit of element type BF16 is tried too. -/
def repPlain (w : IWord) : IWord :=
  match fldN w 0 7 with
  | 0x5B => w &&& 0xFC00007F
  | 0x7B => w &&& 0x0000307F
  | 0x0B => w &&& 0xF000707F
  | _ => w &&& 0xFE00707F

/-- What the step bits name in a word of a repeatable coding, whether or not the word is legal (R151), an accumulator by the five bits of
its field; nothing in a word whose operation no table assigns. -/
def repKinds (w : IWord) : RepForm × StepField × StepField × StepField :=
  let of := fun (u : IWord) => match decode u with
    | .ok j => repFields j
    | .error _ => none
  let r := match of (repPlain w) with
    | some r => r
    | none => (of (repPlain w ||| 0x01000000)).getD (.vr, .no, .no, .no)
  let raw := fun (f : StepField) (pos : Nat) => match f with
    | .no => .no
    | .vec _ => .vec (fld w pos 5)
    | .acc _ => .acc (fldN w pos 5)
  (r.1, raw r.2.1 7, raw r.2.2.1 14, raw r.2.2.2 (if r.1 == .vr then 19 else 20))

/-- The checks of a REP word that issues (R126, R151, R154, R156): HTVAL is the illegal word of the two, and the REP word if
both are. A REPSTATE that does not fit makes the REP illegal before the word after it is fetched (log entry 52). -/
def repCheck (s : State) (count : BitVec 6) (steps stride : BitVec 3) : RepCheck :=
  let self := (wordOf (.rep count steps stride)).setWidth 32
  let n := count.toNat + 1
  let rem := s.bank.repRemain.toNat
  let it := if rem == 0 then 0 else s.bank.repIter.toNat
  if repStateBad rem s.bank.repIter.toNat n then .illegal self
  else match fetchAt s (s.bank.pc + 4) with
  | .error (c, v) => .fault (if rem == 0 then n else rem) it c v
  | .ok bs =>
    let w := wordOfBytes bs
    if (match decode w with | .ok .ebreak => true | _ => false) then .ebreak
    else if !repCoded w then .illegal self
    else
      let (form, f25, f24, f23) := repKinds w
      let last := count.toNat * repStride stride
      if !(f25.ok (steps.getLsbD 2) last s.accs && f24.ok (steps.getLsbD 1) last s.accs && f23.ok (steps.getLsbD 0) last s.accs) then .illegal self
      else match decode w with
        | .error _ => .illegal w
        | .ok j =>
          if !legal false s.accs j then .illegal w
          else match decode (repWord w form steps (it * repStride stride)) with
            | .ok k => .run (if rem == 0 then n else rem) it k
            | .error _ => .illegal self

/-- Mark the repetition that is about to issue. -/
def State.withRep (s : State) (rem it : Nat) : State :=
  s.modTask s.cur fun t => { t with rep := some (BitVec.ofNat 7 rem, BitVec.ofNat 6 it) }

/-- Keep the REP word and the word after it for the repetitions to come. -/
def State.keepPair (s : State) (self : IWord) : State :=
  match fetchAt s (s.bank.pc + 4) with
  | .ok bs => s.modTask s.cur fun t => { t with pair := some (self, wordOfBytes bs) }
  | .error _ => s

/-- REP issues one repetition of the word after it; the next step issues the next one, of the words that the first one found (R152,
R181). A fetch fault on that word leaves
REPSTATE as it was and INREP 0, as for a trap outside a repetition (log entry 23). -/
def execRep (count : BitVec 6) (steps stride : BitVec 3) (s : State) : Host.Outcome State Fault Refusal :=
  if !s.canIssue s.cur then .next s.notReady
  else if !legal s.inHandler s.accs (.rep count steps stride) then .next (takeTrap s 0x01 (wordOf (.rep count steps stride)) none)
  else match repCheck s count steps stride with
    | .illegal w => .next (takeTrap s 0x01 (w.zeroExtend 64) none)
    | .fault rem it c v =>
      match s.cmpMatch (some (it, !(s.task s.cur).inSeq)) with
      | some n => .next (takeTrap (s.withRep rem it) 0x08 0 (some n))
      | none => .next (takeTrap s c v none)
    | .ebreak => .next (takeTrap (s.withRep (count.toNat + 1) 0) 0x08 0 (s.cmpMatch (some (0, true))))
    | .run rem it j =>
      match s.cmpMatch (some (it, !(s.task s.cur).inSeq)) with
      | some c => .next (takeTrap (s.withRep rem it) 0x08 0 (some c))
      | none => repExec j ((s.keepPair ((wordOf (.rep count steps stride)).setWidth 32)).withRep rem it)

end Sys2Proof.Machine
end

