-- ==== Sys2Proof/Machine/Tags.lean ====
section
/-!
DEFINITION. The tag table (R252, R253).
-/

namespace Sys2Proof.Machine

open Sys2Proof

/-- Entries of a task's partition: floor(1,024 / tasks per tile) (R252). -/
def State.partition (s : State) : Nat := 1024 / s.curLaunch.desc.tasks

/-- The value of a tag in a partition. -/
def tagFind (l : List (Word × BitVec 63)) (tag : Word) : Option (BitVec 63) :=
  match l.find? fun e => e.1 == tag with
  | some e => some e.2
  | none => none

/-- Insert: a known tag keeps its place; a new one goes to the end, and a full partition loses its first (R253). -/
def tagInsert (l : List (Word × BitVec 63)) (cap : Nat) (tag : Word) (v : BitVec 63) : List (Word × BitVec 63) :=
  if (tagFind l tag).isSome then l.map fun e => if e.1 == tag then (tag, v) else e
  else (if cap ≤ l.length then l.drop 1 else l) ++ [(tag, v)]

def execTlook (rd rs1 : Reg) (s : State) : Host.Outcome State Fault Refusal :=
  issue (.tlook rd rs1) s fun s =>
    s.put rd (match tagFind s.bank.tags (s.rx rs1) with
      | some v => v.zeroExtend 64
      | none => 0xFFFFFFFFFFFFFFFF)

def execTins (rs1 rs2 : Reg) (s : State) : Host.Outcome State Fault Refusal :=
  issue (.tins rs1 rs2) s fun s =>
    let v := s.rx rs2
    if v.getLsbD 63 then operandFault v
    else .done (s.modBank fun b => { b with tags := tagInsert b.tags s.partition (s.rx rs1) (v.setWidth 63) })

def execTdel (rs1 : Reg) (s : State) : Host.Outcome State Fault Refusal :=
  issue (.tdel rs1) s fun s => .done (s.modBank fun b => { b with tags := b.tags.filter fun e => e.1 != s.rx rs1 })

def execTclr (s : State) : Host.Outcome State Fault Refusal :=
  issue .tclr s fun s => .done (s.modBank fun b => { b with tags := [] })

end Sys2Proof.Machine
end

