-- ==== Sys2Proof/Machine/Dispatch.lean ====
section
/-!
DEFINITION. One arm per constructor of `Instr`: a direct call of its meaning.
-/

namespace Sys2Proof.Machine

open Sys2Proof

def exec (i : Instr) (s : State) : Host.Outcome State Fault Refusal :=
  match i with
  | .lui rd imm => Sys2Proof.Machine.execLui rd imm s
  | .auipc rd imm => Sys2Proof.Machine.execAuipc rd imm s
  | .jal rd imm => Sys2Proof.Machine.execJal rd imm s
  | .jalr rd rs1 imm => Sys2Proof.Machine.execJalr rd rs1 imm s
  | .beq rs1 rs2 imm => Sys2Proof.Machine.execBeq rs1 rs2 imm s
  | .bne rs1 rs2 imm => Sys2Proof.Machine.execBne rs1 rs2 imm s
  | .blt rs1 rs2 imm => Sys2Proof.Machine.execBlt rs1 rs2 imm s
  | .bge rs1 rs2 imm => Sys2Proof.Machine.execBge rs1 rs2 imm s
  | .bltu rs1 rs2 imm => Sys2Proof.Machine.execBltu rs1 rs2 imm s
  | .bgeu rs1 rs2 imm => Sys2Proof.Machine.execBgeu rs1 rs2 imm s
  | .lb rd rs1 imm => Sys2Proof.Machine.execLb rd rs1 imm s
  | .lh rd rs1 imm => Sys2Proof.Machine.execLh rd rs1 imm s
  | .lw rd rs1 imm => Sys2Proof.Machine.execLw rd rs1 imm s
  | .ld rd rs1 imm => Sys2Proof.Machine.execLd rd rs1 imm s
  | .lbu rd rs1 imm => Sys2Proof.Machine.execLbu rd rs1 imm s
  | .lhu rd rs1 imm => Sys2Proof.Machine.execLhu rd rs1 imm s
  | .lwu rd rs1 imm => Sys2Proof.Machine.execLwu rd rs1 imm s
  | .sb rs2 rs1 imm => Sys2Proof.Machine.execSb rs2 rs1 imm s
  | .sh rs2 rs1 imm => Sys2Proof.Machine.execSh rs2 rs1 imm s
  | .sw rs2 rs1 imm => Sys2Proof.Machine.execSw rs2 rs1 imm s
  | .sd rs2 rs1 imm => Sys2Proof.Machine.execSd rs2 rs1 imm s
  | .addi rd rs1 imm => Sys2Proof.Machine.execAddi rd rs1 imm s
  | .slti rd rs1 imm => Sys2Proof.Machine.execSlti rd rs1 imm s
  | .sltiu rd rs1 imm => Sys2Proof.Machine.execSltiu rd rs1 imm s
  | .xori rd rs1 imm => Sys2Proof.Machine.execXori rd rs1 imm s
  | .ori rd rs1 imm => Sys2Proof.Machine.execOri rd rs1 imm s
  | .andi rd rs1 imm => Sys2Proof.Machine.execAndi rd rs1 imm s
  | .slli rd rs1 sh => Sys2Proof.Machine.execSlli rd rs1 sh s
  | .srli rd rs1 sh => Sys2Proof.Machine.execSrli rd rs1 sh s
  | .srai rd rs1 sh => Sys2Proof.Machine.execSrai rd rs1 sh s
  | .addiw rd rs1 imm => Sys2Proof.Machine.execAddiw rd rs1 imm s
  | .slliw rd rs1 sh => Sys2Proof.Machine.execSlliw rd rs1 sh s
  | .srliw rd rs1 sh => Sys2Proof.Machine.execSrliw rd rs1 sh s
  | .sraiw rd rs1 sh => Sys2Proof.Machine.execSraiw rd rs1 sh s
  | .add rd rs1 rs2 => Sys2Proof.Machine.execAdd rd rs1 rs2 s
  | .sub rd rs1 rs2 => Sys2Proof.Machine.execSub rd rs1 rs2 s
  | .sll rd rs1 rs2 => Sys2Proof.Machine.execSll rd rs1 rs2 s
  | .slt rd rs1 rs2 => Sys2Proof.Machine.execSlt rd rs1 rs2 s
  | .sltu rd rs1 rs2 => Sys2Proof.Machine.execSltu rd rs1 rs2 s
  | .xor rd rs1 rs2 => Sys2Proof.Machine.execXor rd rs1 rs2 s
  | .srl rd rs1 rs2 => Sys2Proof.Machine.execSrl rd rs1 rs2 s
  | .sra rd rs1 rs2 => Sys2Proof.Machine.execSra rd rs1 rs2 s
  | .or rd rs1 rs2 => Sys2Proof.Machine.execOr rd rs1 rs2 s
  | .and rd rs1 rs2 => Sys2Proof.Machine.execAnd rd rs1 rs2 s
  | .addw rd rs1 rs2 => Sys2Proof.Machine.execAddw rd rs1 rs2 s
  | .subw rd rs1 rs2 => Sys2Proof.Machine.execSubw rd rs1 rs2 s
  | .sllw rd rs1 rs2 => Sys2Proof.Machine.execSllw rd rs1 rs2 s
  | .srlw rd rs1 rs2 => Sys2Proof.Machine.execSrlw rd rs1 rs2 s
  | .sraw rd rs1 rs2 => Sys2Proof.Machine.execSraw rd rs1 rs2 s
  | .mul rd rs1 rs2 => Sys2Proof.Machine.execMul rd rs1 rs2 s
  | .mulh rd rs1 rs2 => Sys2Proof.Machine.execMulh rd rs1 rs2 s
  | .mulhsu rd rs1 rs2 => Sys2Proof.Machine.execMulhsu rd rs1 rs2 s
  | .mulhu rd rs1 rs2 => Sys2Proof.Machine.execMulhu rd rs1 rs2 s
  | .div rd rs1 rs2 => Sys2Proof.Machine.execDiv rd rs1 rs2 s
  | .divu rd rs1 rs2 => Sys2Proof.Machine.execDivu rd rs1 rs2 s
  | .rem rd rs1 rs2 => Sys2Proof.Machine.execRem rd rs1 rs2 s
  | .remu rd rs1 rs2 => Sys2Proof.Machine.execRemu rd rs1 rs2 s
  | .mulw rd rs1 rs2 => Sys2Proof.Machine.execMulw rd rs1 rs2 s
  | .divw rd rs1 rs2 => Sys2Proof.Machine.execDivw rd rs1 rs2 s
  | .divuw rd rs1 rs2 => Sys2Proof.Machine.execDivuw rd rs1 rs2 s
  | .remw rd rs1 rs2 => Sys2Proof.Machine.execRemw rd rs1 rs2 s
  | .remuw rd rs1 rs2 => Sys2Proof.Machine.execRemuw rd rs1 rs2 s
  | .fence fm pred succ => Sys2Proof.Machine.execFence fm pred succ s
  | .fenceI => Sys2Proof.Machine.execFenceI s
  | .ecall => Sys2Proof.Machine.execEcall s
  | .ebreak => Sys2Proof.Machine.execEbreak s
  | .csrrw rd csr rs1 => Sys2Proof.Machine.execCsrrw rd csr rs1 s
  | .csrrs rd csr rs1 => Sys2Proof.Machine.execCsrrs rd csr rs1 s
  | .csrrc rd csr rs1 => Sys2Proof.Machine.execCsrrc rd csr rs1 s
  | .csrrwi rd csr uimm => Sys2Proof.Machine.execCsrrwi rd csr uimm s
  | .csrrsi rd csr uimm => Sys2Proof.Machine.execCsrrsi rd csr uimm s
  | .csrrci rd csr uimm => Sys2Proof.Machine.execCsrrci rd csr uimm s
  | .illegalInstruction w => Sys2Proof.Machine.execIllegalInstruction w s
  | .sync rd rs1 => Sys2Proof.Machine.execSync rd rs1 s
  | .exit => Sys2Proof.Machine.execExit s
  | .trig => Sys2Proof.Machine.execTrig s
  | .launch rs1 => Sys2Proof.Machine.execLaunch rs1 s
  | .abortreq rs1 => Sys2Proof.Machine.execAbortreq rs1 s
  | .hret rs1 => Sys2Proof.Machine.execHret rs1 s
  | .cpget rd rs1 => Sys2Proof.Machine.execCpget rd rs1 s
  | .cpput rd rs1 => Sys2Proof.Machine.execCpput rd rs1 s
  | .cppeer rd rs1 => Sys2Proof.Machine.execCppeer rd rs1 s
  | .cpwait rs1 => Sys2Proof.Machine.execCpwait rs1 s
  | .cptest rd rs1 => Sys2Proof.Machine.execCptest rd rs1 s
  | .flist rs1 => Sys2Proof.Machine.execFlist rs1 s
  | .give rs1 rs2 => Sys2Proof.Machine.execGive rs1 rs2 s
  | .raddw rs2 rs1 => Sys2Proof.Machine.execRaddw rs2 rs1 s
  | .raddd rs2 rs1 => Sys2Proof.Machine.execRaddd rs2 rs1 s
  | .rfadds rs2 rs1 => Sys2Proof.Machine.execRfadds rs2 rs1 s
  | .rmind rs2 rs1 => Sys2Proof.Machine.execRmind rs2 rs1 s
  | .rmaxd rs2 rs1 => Sys2Proof.Machine.execRmaxd rs2 rs1 s
  | .rord rs2 rs1 => Sys2Proof.Machine.execRord rs2 rs1 s
  | .randd rs2 rs1 => Sys2Proof.Machine.execRandd rs2 rs1 s
  | .rxord rs2 rs1 => Sys2Proof.Machine.execRxord rs2 rs1 s
  | .send rs1 rs2 => Sys2Proof.Machine.execSend rs1 rs2 s
  | .redadd rs2 rs1 => Sys2Proof.Machine.execRedadd rs2 rs1 s
  | .gfaa rd rs2 rs1 => Sys2Proof.Machine.execGfaa rd rs2 rs1 s
  | .gredAddd rs1 rs2 => Sys2Proof.Machine.execGredAddd rs1 rs2 s
  | .gredMind rs1 rs2 => Sys2Proof.Machine.execGredMind rs1 rs2 s
  | .gredMaxd rs1 rs2 => Sys2Proof.Machine.execGredMaxd rs1 rs2 s
  | .gredAndd rs1 rs2 => Sys2Proof.Machine.execGredAndd rs1 rs2 s
  | .gredOrd rs1 rs2 => Sys2Proof.Machine.execGredOrd rs1 rs2 s
  | .gredXord rs1 rs2 => Sys2Proof.Machine.execGredXord rs1 rs2 s
  | .gredFadds rs1 rs2 => Sys2Proof.Machine.execGredFadds rs1 rs2 s
  | .gredFmins rs1 rs2 => Sys2Proof.Machine.execGredFmins rs1 rs2 s
  | .gredFmaxs rs1 rs2 => Sys2Proof.Machine.execGredFmaxs rs1 rs2 s
  | .gresAddd rd rs1 => Sys2Proof.Machine.execGresAddd rd rs1 s
  | .gresMind rd rs1 => Sys2Proof.Machine.execGresMind rd rs1 s
  | .gresMaxd rd rs1 => Sys2Proof.Machine.execGresMaxd rd rs1 s
  | .gresAndd rd rs1 => Sys2Proof.Machine.execGresAndd rd rs1 s
  | .gresOrd rd rs1 => Sys2Proof.Machine.execGresOrd rd rs1 s
  | .gresXord rd rs1 => Sys2Proof.Machine.execGresXord rd rs1 s
  | .gresFadds rd rs1 => Sys2Proof.Machine.execGresFadds rd rs1 s
  | .gresFmins rd rs1 => Sys2Proof.Machine.execGresFmins rd rs1 s
  | .gresFmaxs rd rs1 => Sys2Proof.Machine.execGresFmaxs rd rs1 s
  | .bst rs1 rs2 => Sys2Proof.Machine.execBst rs1 rs2 s
  | .bld rd rs1 => Sys2Proof.Machine.execBld rd rs1 s
  | .tlook rd rs1 => Sys2Proof.Machine.execTlook rd rs1 s
  | .tins rs1 rs2 => Sys2Proof.Machine.execTins rs1 rs2 s
  | .tdel rs1 => Sys2Proof.Machine.execTdel rs1 s
  | .tclr => Sys2Proof.Machine.execTclr s
  | .rep count steps stride => Sys2Proof.Machine.execRep count steps stride s
  | .stall n => Sys2Proof.Machine.execStall n s
  | .stallExpiry slot => Sys2Proof.Machine.execStallExpiry slot s
  | .vld vd rs1 pg => Sys2Proof.Machine.execVld vd rs1 pg s
  | .vldpi vd rs1 pg => Sys2Proof.Machine.execVldpi vd rs1 pg s
  | .vst vs rs1 pg => Sys2Proof.Machine.execVst vs rs1 pg s
  | .vstpi vs rs1 pg => Sys2Proof.Machine.execVstpi vs rs1 pg s
  | .vlds vd rs1 rs2 pg => Sys2Proof.Machine.execVlds vd rs1 rs2 pg s
  | .vsts vs rs1 rs2 pg => Sys2Proof.Machine.execVsts vs rs1 rs2 pg s
  | .vgath vd rs1 vi pg => Sys2Proof.Machine.execVgath vd rs1 vi pg s
  | .vscat vs rs1 vi pg => Sys2Proof.Machine.execVscat vs rs1 vi pg s
  | .pldr pd rs1 => Sys2Proof.Machine.execPldr pd rs1 s
  | .pstr ps rs1 => Sys2Proof.Machine.execPstr ps rs1 s
  | .vfadd es vd vs1 vs2 pg => Sys2Proof.Machine.execVfadd es vd vs1 vs2 pg s
  | .vfsub es vd vs1 vs2 pg => Sys2Proof.Machine.execVfsub es vd vs1 vs2 pg s
  | .vfmul es vd vs1 vs2 pg => Sys2Proof.Machine.execVfmul es vd vs1 vs2 pg s
  | .vfma es vd vs1 vs2 pg => Sys2Proof.Machine.execVfma es vd vs1 vs2 pg s
  | .vfnms es vd vs1 vs2 pg => Sys2Proof.Machine.execVfnms es vd vs1 vs2 pg s
  | .vfmin es vd vs1 vs2 pg => Sys2Proof.Machine.execVfmin es vd vs1 vs2 pg s
  | .vfmax es vd vs1 vs2 pg => Sys2Proof.Machine.execVfmax es vd vs1 vs2 pg s
  | .vfabs es vd vs1 pg => Sys2Proof.Machine.execVfabs es vd vs1 pg s
  | .vfneg es vd vs1 pg => Sys2Proof.Machine.execVfneg es vd vs1 pg s
  | .vfceq es pd vs1 vs2 pg => Sys2Proof.Machine.execVfceq es pd vs1 vs2 pg s
  | .vfclt es pd vs1 vs2 pg => Sys2Proof.Machine.execVfclt es pd vs1 vs2 pg s
  | .vfcle es pd vs1 vs2 pg => Sys2Proof.Machine.execVfcle es pd vs1 vs2 pg s
  | .vfsumr es vd vs1 pg => Sys2Proof.Machine.execVfsumr es vd vs1 pg s
  | .vfmaxr es vd vs1 pg => Sys2Proof.Machine.execVfmaxr es vd vs1 pg s
  | .vfcvt es src vd vs1 pg => Sys2Proof.Machine.execVfcvt es src vd vs1 pg s
  | .vfcpys es vd vs1 vs2 pg => Sys2Proof.Machine.execVfcpys es vd vs1 vs2 pg s
  | .vfrcp es vd vs1 pg => Sys2Proof.Machine.execVfrcp es vd vs1 pg s
  | .vfrsq es vd vs1 pg => Sys2Proof.Machine.execVfrsq es vd vs1 pg s
  | .vfsqrt es vd vs1 pg => Sys2Proof.Machine.execVfsqrt es vd vs1 pg s
  | .vfdiv es vd vs1 vs2 pg => Sys2Proof.Machine.execVfdiv es vd vs1 vs2 pg s
  | .vfexp2 es vd vs1 pg => Sys2Proof.Machine.execVfexp2 es vd vs1 pg s
  | .vflog2 es vd vs1 pg => Sys2Proof.Machine.execVflog2 es vd vs1 pg s
  | .vftanh es vd vs1 pg => Sys2Proof.Machine.execVftanh es vd vs1 pg s
  | .sfuRequestComplete l t => Sys2Proof.Machine.execSfuRequestComplete l t s
  | .vcvtn vd vs1 f pg => Sys2Proof.Machine.execVcvtn vd vs1 f pg s
  | .vcvtw vd vs1 f pg => Sys2Proof.Machine.execVcvtw vd vs1 f pg s
  | .vscale vd vs1 vs2 pg => Sys2Proof.Machine.execVscale vd vs1 vs2 pg s
  | .vbmax vd vs1 f pg => Sys2Proof.Machine.execVbmax vd vs1 f pg s
  | .vadd es vd vs1 vs2 pg => Sys2Proof.Machine.execVadd es vd vs1 vs2 pg s
  | .vsub es vd vs1 vs2 pg => Sys2Proof.Machine.execVsub es vd vs1 vs2 pg s
  | .vmul es vd vs1 vs2 pg => Sys2Proof.Machine.execVmul es vd vs1 vs2 pg s
  | .vmulh es vd vs1 vs2 pg => Sys2Proof.Machine.execVmulh es vd vs1 vs2 pg s
  | .vand es vd vs1 vs2 pg => Sys2Proof.Machine.execVand es vd vs1 vs2 pg s
  | .vor es vd vs1 vs2 pg => Sys2Proof.Machine.execVor es vd vs1 vs2 pg s
  | .vxor es vd vs1 vs2 pg => Sys2Proof.Machine.execVxor es vd vs1 vs2 pg s
  | .vsll es vd vs1 vs2 pg => Sys2Proof.Machine.execVsll es vd vs1 vs2 pg s
  | .vsrl es vd vs1 vs2 pg => Sys2Proof.Machine.execVsrl es vd vs1 vs2 pg s
  | .vsra es vd vs1 vs2 pg => Sys2Proof.Machine.execVsra es vd vs1 vs2 pg s
  | .vmin es vd vs1 vs2 pg => Sys2Proof.Machine.execVmin es vd vs1 vs2 pg s
  | .vmax es vd vs1 vs2 pg => Sys2Proof.Machine.execVmax es vd vs1 vs2 pg s
  | .vminu es vd vs1 vs2 pg => Sys2Proof.Machine.execVminu es vd vs1 vs2 pg s
  | .vmaxu es vd vs1 vs2 pg => Sys2Proof.Machine.execVmaxu es vd vs1 vs2 pg s
  | .viceq es pd vs1 vs2 pg => Sys2Proof.Machine.execViceq es pd vs1 vs2 pg s
  | .viclt es pd vs1 vs2 pg => Sys2Proof.Machine.execViclt es pd vs1 vs2 pg s
  | .vicltu es pd vs1 vs2 pg => Sys2Proof.Machine.execVicltu es pd vs1 vs2 pg s
  | .vsel vd vs1 vs2 pg => Sys2Proof.Machine.execVsel vd vs1 vs2 pg s
  | .vperm es vd vs1 vs2 pg => Sys2Proof.Machine.execVperm es vd vs1 vs2 pg s
  | .vslup es vd vs2 rs1 pg => Sys2Proof.Machine.execVslup es vd vs2 rs1 pg s
  | .vsldn es vd vs2 rs1 pg => Sys2Proof.Machine.execVsldn es vd vs2 rs1 pg s
  | .vzip es vd vs1 vs2 pg => Sys2Proof.Machine.execVzip es vd vs1 vs2 pg s
  | .vunzip es vd vs1 vs2 pg => Sys2Proof.Machine.execVunzip es vd vs1 vs2 pg s
  | .viota es vd pg => Sys2Proof.Machine.execViota es vd pg s
  | .vdupx es vd rs1 pg => Sys2Proof.Machine.execVdupx es vd rs1 pg s
  | .vmvxs es rd vs2 rs1 => Sys2Proof.Machine.execVmvxs es rd vs2 rs1 s
  | .visumr es vd vs1 pg => Sys2Proof.Machine.execVisumr es vd vs1 pg s
  | .pwhilelt es pd rs1 rs2 => Sys2Proof.Machine.execPwhilelt es pd rs1 rs2 s
  | .plogicAnd pd ps1 ps2 => Sys2Proof.Machine.execPlogicAnd pd ps1 ps2 s
  | .plogicOr pd ps1 ps2 => Sys2Proof.Machine.execPlogicOr pd ps1 ps2 s
  | .plogicXor pd ps1 ps2 => Sys2Proof.Machine.execPlogicXor pd ps1 ps2 s
  | .plogicAndn pd ps1 ps2 => Sys2Proof.Machine.execPlogicAndn pd ps1 ps2 s
  | .pcnt es rd ps1 => Sys2Proof.Machine.execPcnt es rd ps1 s
  | .pfirst es pd ps1 => Sys2Proof.Machine.execPfirst es pd ps1 s
  | .vli es vd imm => Sys2Proof.Machine.execVli es vd imm s
  | .vaddi es vd imm => Sys2Proof.Machine.execVaddi es vd imm s
  | .vmuli es vd imm => Sys2Proof.Machine.execVmuli es vd imm s
  | .vmaxi es vd imm => Sys2Proof.Machine.execVmaxi es vd imm s
  | .mzero md => Sys2Proof.Machine.execMzero md s
  | .mma md rs1 rs2 => Sys2Proof.Machine.execMma md rs1 rs2 s
  | .mmas md rs1 rs2 => Sys2Proof.Machine.execMmas md rs1 rs2 s
  | .mmav md va rs2 => Sys2Proof.Machine.execMmav md va rs2 s
  | .mrd vd ms rs1 => Sys2Proof.Machine.execMrd vd ms rs1 s
  | .mwr md vs rs1 => Sys2Proof.Machine.execMwr md vs rs1 s
  | .mst ms rs1 => Sys2Proof.Machine.execMst ms rs1 s
  | .mwait md => Sys2Proof.Machine.execMwait md s
  | .matrixRequestStart l t => Sys2Proof.Machine.execMatrixRequestStart l t s
  | .matrixRequestComplete l t n => Sys2Proof.Machine.execMatrixRequestComplete l t n s
  | .qrv vd rs1 => Sys2Proof.Machine.execQrv vd rs1 s
  | .qrvf vd rs1 => Sys2Proof.Machine.execQrvf vd rs1 s
  | .qrx rd rs1 rs2 => Sys2Proof.Machine.execQrx rd rs1 rs2 s
  | .qrnext => Sys2Proof.Machine.execQrnext s
  | .qrskip rs1 => Sys2Proof.Machine.execQrskip rs1 s
  | .qrtld rs1 rs2 => Sys2Proof.Machine.execQrtld rs1 rs2 s
  | .pipv vd => Sys2Proof.Machine.execPipv vd s
  | .accessResult slot k => Sys2Proof.Machine.execAccessResult slot k s
  | .copyComplete l t n tag => Sys2Proof.Machine.execCopyComplete l t n tag s
  | .cceRound pkg die cluster => Sys2Proof.Machine.execCceRound pkg die cluster s
  | .trapDelivery l t n => Sys2Proof.Machine.execTrapDelivery l t n s
  | .escalatedTrap l t n act => Sys2Proof.Machine.execEscalatedTrap l t n act s
  | .waveEnd l => Sys2Proof.Machine.execWaveEnd l s
  | .vote l p => Sys2Proof.Machine.execVote l p s
  | .ladderClose l p => Sys2Proof.Machine.execLadderClose l p s
  | .checkpointPauseEnd l => Sys2Proof.Machine.execCheckpointPauseEnd l s
  | .earlyAbort l => Sys2Proof.Machine.execEarlyAbort l s
  | .sramError l t place rebuilt => Sys2Proof.Machine.execSramError l t place rebuilt s
  | .residueMismatch l t => Sys2Proof.Machine.execResidueMismatch l t s
  | .stageEnd l => Sys2Proof.Machine.execStageEnd l s
  | .contextSaveComplete l t result => Sys2Proof.Machine.execContextSaveComplete l t result s
  | .launchStart pkg dom => Sys2Proof.Machine.execLaunchStart pkg dom s
  | .aging pkg dom q k => Sys2Proof.Machine.execAging pkg dom q k s
  | .preemptionRequest l => Sys2Proof.Machine.execPreemptionRequest l s
  | .powerParkTimeout pkg => Sys2Proof.Machine.execPowerParkTimeout pkg s
  | .dieOutOfService pkg die => Sys2Proof.Machine.execDieOutOfService pkg die s
  | .packetReceive k => Sys2Proof.Machine.execPacketReceive k s
  | .packetAck k => Sys2Proof.Machine.execPacketAck k s
  | .packetRefusal k => Sys2Proof.Machine.execPacketRefusal k s
  | .flit pkg port first corrected bad => Sys2Proof.Machine.execFlit pkg port first corrected bad s
  | .subWindowEnd pkg port lane => Sys2Proof.Machine.execSubWindowEnd pkg port lane s
  | .laneWithdrawal pkg port lane => Sys2Proof.Machine.execLaneWithdrawal pkg port lane s
  | .laneRejoin pkg port lane => Sys2Proof.Machine.execLaneRejoin pkg port lane s
  | .lockAttemptTimeout pkg port lane => Sys2Proof.Machine.execLockAttemptTimeout pkg port lane s
  | .retryWaitEnd pkg port lane => Sys2Proof.Machine.execRetryWaitEnd pkg port lane s
  | .portLost pkg port => Sys2Proof.Machine.execPortLost pkg port s
  | .pathTableRewrite pkg entries => Sys2Proof.Machine.execPathTableRewrite pkg entries s
  | .visit => Sys2Proof.Machine.execVisit s
  | .pawnFrame pkg => Sys2Proof.Machine.execPawnFrame pkg s
  | .voteFrame pkg => Sys2Proof.Machine.execVoteFrame pkg s
  | .commitFrame pkg => Sys2Proof.Machine.execCommitFrame pkg s
  | .bcastFrame pkg => Sys2Proof.Machine.execBcastFrame pkg s
  | .packageFailed pkg => Sys2Proof.Machine.execPackageFailed pkg s
  | .spareTakeover failed spare => Sys2Proof.Machine.execSpareTakeover failed spare s
  | .qpush pkg dom q va => Sys2Proof.Machine.execQpush pkg dom q va s
  | .wbsel pkg dom v => Sys2Proof.Machine.execWbsel pkg dom v s
  | .evtail pkg dom v => Sys2Proof.Machine.execEvtail pkg dom v s
  | .rstgo pkg dom v => Sys2Proof.Machine.execRstgo pkg dom v s
  | .attgo pkg va => Sys2Proof.Machine.execAttgo pkg va s
  | .attestationReport pkg => Sys2Proof.Machine.execAttestationReport pkg s
  | .pwrstep pkg v => Sys2Proof.Machine.execPwrstep pkg v s
  | .pbcmdStart pkg => Sys2Proof.Machine.execPbcmdStart pkg s
  | .pbcmdCommit pkg => Sys2Proof.Machine.execPbcmdCommit pkg s
  | .pbcmdAbandon pkg => Sys2Proof.Machine.execPbcmdAbandon pkg s
  | .clrfail pkg port => Sys2Proof.Machine.execClrfail pkg port s
  | .registerWrite pkg offset size v secure => Sys2Proof.Machine.execRegisterWrite pkg offset size v secure s
  | .windowBRead pkg offset size => Sys2Proof.Machine.execWindowBRead pkg offset size s
  | .windowBWrite pkg offset bytes => Sys2Proof.Machine.execWindowBWrite pkg offset bytes s
  | .i3cPrivateWrite pkg addr v => Sys2Proof.Machine.execI3cPrivateWrite pkg addr v s
  | .i3cPrivateRead pkg addr => Sys2Proof.Machine.execI3cPrivateRead pkg addr s
  | .gridstepSample pkg pins => Sys2Proof.Machine.execGridstepSample pkg pins s
  | .walkStart pkg => Sys2Proof.Machine.execWalkStart pkg s
  | .walkStep pkg => Sys2Proof.Machine.execWalkStep pkg s
  | .pfail pkg => Sys2Proof.Machine.execPfail pkg s
  | .drainStart pkg => Sys2Proof.Machine.execDrainStart pkg s
  | .drainEnd pkg => Sys2Proof.Machine.execDrainEnd pkg s
  | .resetRelease pkg rel => Sys2Proof.Machine.execResetRelease pkg rel s
  | .clusterWake pkg ok => Sys2Proof.Machine.execClusterWake pkg ok s
  | .hbmTraining pkg failed => Sys2Proof.Machine.execHbmTraining pkg failed s
  | .sramInitialisation pkg failed => Sys2Proof.Machine.execSramInitialisation pkg failed s
  | .opticalTraining pkg failed pairing members sched => Sys2Proof.Machine.execOpticalTraining pkg failed pairing members sched s
  | .activate pkg stack bank row => Sys2Proof.Machine.execActivate pkg stack bank row s
  | .bankRefresh pkg stack bank => Sys2Proof.Machine.execBankRefresh pkg stack bank s
  | .powerReturn pkg => Sys2Proof.Machine.execPowerReturn pkg s
  | .missedFrame pkg => Sys2Proof.Machine.execMissedFrame pkg s
  | .pageTableWrite pkg dom va pte => Sys2Proof.Machine.execPageTableWrite pkg dom va pte s
  | .divideComplete slot => Sys2Proof.Machine.execDivideComplete slot s
  | .heldLaunchDecision l retry => Sys2Proof.Machine.execHeldLaunchDecision l retry s
  | .heldTilesRelease l => Sys2Proof.Machine.execHeldTilesRelease l s
  | .domainConfiguration pkg dom cfg => Sys2Proof.Machine.execDomainConfiguration pkg dom cfg s

end Sys2Proof.Machine
end

