-- ==== Sys2Proof/Machine/Step.lean ====
section
/-!
DEFINITION. One step: the agenda's head happens; with an empty agenda the next slot that can issue does, each in its turn, or
an event of the part's own.
-/

namespace Sys2Proof.Machine

open Sys2Proof

/-- The issuing slot fetches and runs its next instruction, or takes the trap of the fetch (R140), which a comparator's match
precedes (R301); an instruction whose line no path leads to does not come (R338). -/
def stepSlot (s : State) : Host.Outcome State Fault Refusal :=
  if !s.canIssue s.cur then .next s
  else match fetchInstr s s.bank.pc with
    | .error (c, v) => .next (fetchTrap s c v)
    | .ok i => match s.fetchLost with
      | some e => .next (s.raiseB e.1 e.2 0x42)
      | none => exec i s

/-- One step of the machine. -/
def step (s : State) : Host.Outcome State Fault Refusal :=
  match s.agenda with
  | .issue k :: rest => stepSlot { s with agenda := rest, cur := k }
  | .event i :: rest => if isEvent i then exec i { s with agenda := rest } else .next { s with agenda := rest }
  | [] =>
    match nextSlot s with
    | some t => stepSlot t
    | none => match nextEvent s with
      | some o => o
      | none => .next { s with pace := { s.pace with wheel := 0, issued := 0, mark := 0 } }

/-- The state with an instruction, whose bits are numbered as the opcode table numbers them, where `step` fetches next. -/
def State.withFetchWord (s : State) (nbits w : Nat) : State := s.withProgram (bytesOfWord (tableWord nbits w))

end Sys2Proof.Machine
end

