-- ==== Sys2Proof/Safety.lean ====
section
/-!
DEFINITION. The terms the claims use: a step that answers a next state, when an instruction word runs its own effect, what an
instruction that completes does beside it, and the invariants.
-/

namespace Sys2Proof.Machine

open Sys2Proof

/-- The outcome is a next state. -/
def Completes (o : Host.Outcome State Fault Refusal) : Prop := ∃ t, o = .next t

/-- The instruction word runs its own effect: the slot can issue (R23, R29, R180), a matrix request finds room in its queue and
MRD an idle accumulator (R267, R272), the word is legal for it (R125, R134,
R136, R138), no comparator matches (R300), nothing it reads or writes is interlocked (R146, R198), and no source is read
below its latency (R149). A repetition of a REP word has had its comparators tested with the word (R301). -/
def State.readyFor (s : State) (i : Instr) : Bool :=
  s.canIssue s.cur && !s.matWait i && legal s.inHandler s.accs i && ((s.task s.cur).rep.isSome || (s.cmpMatch none).isNone) &&
    !interlocked (s.task s.cur) i && (s.inHandler || (!s.sfuBusy i && (shortReads (s.task s.cur) i).isEmpty))

/-- The bank `b` that a completing instruction leaves, with the pc moved on: past the word or to a jump's target; as a
repetition, with REPSTATE counted, and past both words after the last one (R153, R154, R181). -/
def Task.moved (k : Task) (b : Bank) (dst : Option Word) : Bank :=
  match k.rep with
  | some (rem, it) =>
    if rem.toNat ≤ 1 then { b with repRemain := 0, repIter := 0, pc := k.bank.pc + 8 }
    else { b with repRemain := rem - 1, repIter := it + 1 }
  | none => { b with pc := match dst with | some a => a | none => k.bank.pc + 4 }

/-- `t` is `s1` after the issuing slot of `s` has completed its instruction: only that slot's pc (or REPSTATE), its
distances and its marks of a repetition differ from `s1`. -/
structure Retired (s s1 t : State) (dst : Option Word) : Prop where
  /-- Nothing but the table of slots differs. -/
  rest : { t with tasks := s1.tasks } = s1
  /-- No other slot differs. -/
  others : ∀ k, k ≠ s.cur → t.task k = s1.task k
  /-- The slot's registers: as in `s1`, with the pc moved. -/
  bank : (t.task s.cur).bank = (s.task s.cur).moved (s1.task s.cur).bank dst
  kept : (t.task s.cur).kept = (s1.task s.cur).kept
  status : (t.task s.cur).status = (s1.task s.cur).status
  pend : (t.task s.cur).pend = (s1.task s.cur).pend
  mreq : (t.task s.cur).mreq = (s1.task s.cur).mreq
  stall : (t.task s.cur).stall = (s1.task s.cur).stall
  rep : (t.task s.cur).rep = none

/-- The instruction completes from `s` with the effect `s1` and the next pc. -/
def Effects (i : Instr) (s s1 : State) : Prop := ∃ t, exec i s = .next t ∧ Retired s s1 t none

/-- The instruction completes from `s` with the effect `s1` and goes on at `a`. -/
def Jumps (i : Instr) (s s1 : State) (a : Word) : Prop := ∃ t, exec i s = .next t ∧ Retired s s1 t (some a)

/-- The instruction raises a class A trap and has no effect of its own (R160, R287). -/
def Traps (i : Instr) (s : State) (cause : BitVec 8) (tval : Word) : Prop := exec i s = .next (takeTrap s cause tval none)

/-- No handler slot queues more than four traps (R292). -/
def HandlersBounded (s : State) : Prop := ∀ p phys, (s.handler p phys).queue.length ≤ 4

end Sys2Proof.Machine
end

