-- ==== Sys2Proof/Certificates/Slice0/Obligations.lean ====
section
/-!
DEFINITION. The statements for the provers. The helpers of the first part write the manual's tables down once more, apart from
the meanings, so that a statement compares the two.
-/

namespace Sys2Proof.Claims

open Sys2Proof Sys2Proof.Machine

/-! ### Integer tables (R90, R161–R164) -/

/-- 1 or 0. -/
def flag (p : Prop) [Decidable p] : Word := if p then 1 else 0

/-- sext of a 32-bit result given as an integer (R90). -/
def word32 (v : Int) : Word := (BitVec.ofInt 32 v).signExtend 64

/-- The value that an integer instruction writes, and its destination (R161, R162, R163 without the divide forms, R164's LUI
and AUIPC); `x` gives the registers and `pc` the instruction's address. -/
def intValue (x : Reg → Word) (pc : Word) : Instr → Option (Reg × Word)
  | .addi d a i => some (d, BitVec.ofInt 64 ((x a).toInt + i.toInt))
  | .slti d a i => some (d, flag ((x a).toInt < i.toInt))
  | .sltiu d a i => some (d, flag ((x a).toNat < (i.signExtend 64).toNat))
  | .xori d a i => some (d, x a ^^^ i.signExtend 64)
  | .ori d a i => some (d, x a ||| i.signExtend 64)
  | .andi d a i => some (d, x a &&& i.signExtend 64)
  | .slli d a h => some (d, BitVec.ofNat 64 ((x a).toNat * 2 ^ h.toNat))
  | .srli d a h => some (d, BitVec.ofNat 64 ((x a).toNat / 2 ^ h.toNat))
  | .srai d a h => some (d, BitVec.ofInt 64 ((x a).toInt / 2 ^ h.toNat))
  | .addiw d a i => some (d, word32 ((x a).toNat + i.toInt))
  | .slliw d a h => some (d, word32 ((x a).toNat % 2 ^ 32 * 2 ^ h.toNat : Nat))
  | .srliw d a h => some (d, word32 ((x a).toNat % 2 ^ 32 / 2 ^ h.toNat : Nat))
  | .sraiw d a h => some (d, word32 (((x a).setWidth 32).toInt / 2 ^ h.toNat))
  | .add d a b => some (d, BitVec.ofNat 64 ((x a).toNat + (x b).toNat))
  | .sub d a b => some (d, BitVec.ofInt 64 ((x a).toNat - (x b).toNat))
  | .sll d a b => some (d, BitVec.ofNat 64 ((x a).toNat * 2 ^ ((x b).toNat % 64)))
  | .slt d a b => some (d, flag ((x a).toInt < (x b).toInt))
  | .sltu d a b => some (d, flag ((x a).toNat < (x b).toNat))
  | .xor d a b => some (d, x a ^^^ x b)
  | .srl d a b => some (d, BitVec.ofNat 64 ((x a).toNat / 2 ^ ((x b).toNat % 64)))
  | .sra d a b => some (d, BitVec.ofInt 64 ((x a).toInt / 2 ^ ((x b).toNat % 64)))
  | .or d a b => some (d, x a ||| x b)
  | .and d a b => some (d, x a &&& x b)
  | .addw d a b => some (d, word32 ((x a).toNat + (x b).toNat : Nat))
  | .subw d a b => some (d, word32 ((x a).toNat - (x b).toNat))
  | .sllw d a b => some (d, word32 ((x a).toNat % 2 ^ 32 * 2 ^ ((x b).toNat % 32) : Nat))
  | .srlw d a b => some (d, word32 ((x a).toNat % 2 ^ 32 / 2 ^ ((x b).toNat % 32) : Nat))
  | .sraw d a b => some (d, word32 (((x a).setWidth 32).toInt / 2 ^ ((x b).toNat % 32)))
  | .mul d a b => some (d, BitVec.ofNat 64 ((x a).toNat * (x b).toNat))
  | .mulh d a b => some (d, BitVec.ofInt 64 ((x a).toInt * (x b).toInt / 2 ^ 64))
  | .mulhsu d a b => some (d, BitVec.ofInt 64 ((x a).toInt * (x b).toNat / 2 ^ 64))
  | .mulhu d a b => some (d, BitVec.ofNat 64 ((x a).toNat * (x b).toNat / 2 ^ 64))
  | .mulw d a b => some (d, word32 ((x a).toNat * (x b).toNat : Nat))
  | .lui d i => some (d, (i ++ 0#12).signExtend 64)
  | .auipc d i => some (d, pc + (i ++ 0#12).signExtend 64)
  | _ => none

/-- Signed quotient and remainder of width w (R90). -/
def divS {w : Nat} (a b : BitVec w) : BitVec w × BitVec w :=
  if b = 0 then (BitVec.allOnes w, a)
  else if a = BitVec.intMin w ∧ b = BitVec.allOnes w then (BitVec.intMin w, 0)
  else (BitVec.ofInt w (a.toInt.tdiv b.toInt), BitVec.ofInt w (a.toInt.tmod b.toInt))

/-- Unsigned quotient and remainder of width w (R90). -/
def divU {w : Nat} (a b : BitVec w) : BitVec w × BitVec w := if b = 0 then (BitVec.allOnes w, a) else (a / b, a % b)

/-- The result of a divide form (R163). -/
def divValue (x : Reg → Word) : Instr → Option (Reg × Word)
  | .div d a b => some (d, (divS (x a) (x b)).1)
  | .divu d a b => some (d, (divU (x a) (x b)).1)
  | .rem d a b => some (d, (divS (x a) (x b)).2)
  | .remu d a b => some (d, (divU (x a) (x b)).2)
  | .divw d a b => some (d, (divS ((x a).setWidth 32) ((x b).setWidth 32)).1.signExtend 64)
  | .divuw d a b => some (d, (divU ((x a).setWidth 32) ((x b).setWidth 32)).1.signExtend 64)
  | .remw d a b => some (d, (divS ((x a).setWidth 32) ((x b).setWidth 32)).2.signExtend 64)
  | .remuw d a b => some (d, (divU ((x a).setWidth 32) ((x b).setWidth 32)).2.signExtend 64)
  | _ => none

/-- The target of a jump or branch, the register that receives the link, if one, and whether it is taken (R164, R165). -/
def jumpOf (x : Reg → Word) (pc : Word) : Instr → Option (Option Reg × Word × Bool)
  | .jal d i => some (some d, pc + BitVec.ofInt 64 (2 * i.toInt), true)
  | .jalr d a i => some (some d, BitVec.ofNat 64 ((x a + i.signExtend 64).toNat / 2 * 2), true)
  | .beq a b i => some (none, pc + BitVec.ofInt 64 (2 * i.toInt), decide (x a = x b))
  | .bne a b i => some (none, pc + BitVec.ofInt 64 (2 * i.toInt), decide (x a ≠ x b))
  | .blt a b i => some (none, pc + BitVec.ofInt 64 (2 * i.toInt), decide ((x a).toInt < (x b).toInt))
  | .bge a b i => some (none, pc + BitVec.ofInt 64 (2 * i.toInt), decide ((x b).toInt ≤ (x a).toInt))
  | .bltu a b i => some (none, pc + BitVec.ofInt 64 (2 * i.toInt), decide ((x a).toNat < (x b).toNat))
  | .bgeu a b i => some (none, pc + BitVec.ofInt 64 (2 * i.toInt), decide ((x b).toNat ≤ (x a).toNat))
  | _ => none

/-! ### Words that a slot may not run (R125, R134, R136–R138) -/

/-- The accumulator that a word names (R129). -/
def accOf : Instr → Option Acc
  | .mzero m => some m
  | .mma m _ _ => some m
  | .mmas m _ _ => some m
  | .mmav m _ _ => some m
  | .mrd _ m _ => some m
  | .mwr m _ _ => some m
  | .mst m _ => some m
  | .mwait m => some m
  | _ => none

/-- The CSR that a word names, and whether it writes it (R138). -/
def csrNamed : Instr → Option (Nat × Bool)
  | .csrrw _ c _ => some (c.toNat, true)
  | .csrrs _ c a => some (c.toNat, a != 0)
  | .csrrc _ c a => some (c.toNat, a != 0)
  | .csrrwi _ c _ => some (c.toNat, true)
  | .csrrsi _ c u => some (c.toNat, u != 0)
  | .csrrci _ c u => some (c.toNat, u != 0)
  | _ => none

/-- The read-only and the writable CSRs of a task, and the handler's (R137). -/
def csrRO : List Nat := [0xC80, 0xC81, 0xC82, 0xC83, 0xC84, 0xC85, 0xC86, 0xC87, 0xC88, 0xC89, 0xC8A, 0xC8B, 0xC8C, 0xC8D, 0x824, 0x826, 0x829, 0x830, 0x831]
def csrRW : List Nat :=
  [0x800, 0x801, 0x802, 0x803, 0x804, 0x810, 0x811, 0x812, 0x813, 0x814, 0x815, 0x816, 0x817, 0x820, 0x821, 0x822, 0x823, 0x825, 0x828, 0x82A, 0x832]
def csrH : List Nat := [0x7C0, 0x7C1, 0x7C2, 0x7C3, 0x7C4, 0x7C5, 0x7C6]

/-- The major opcode of a word is the base's, or the word is HRET or STALL: what the handler slot may run (R124, R134). -/
def baseOpcodes : List Nat := [0x03, 0x0F, 0x13, 0x17, 0x1B, 0x23, 0x33, 0x37, 0x3B, 0x63, 0x67, 0x6F, 0x73]
def handlerMay (w : IWord) : Prop :=
  w.toNat % 128 ∈ baseOpcodes ∨ (w.toNat % 128 = 0x0B ∧ (w.toNat / 2 ^ 12 % 8 = 6 ∨ (w.toNat / 2 ^ 12 % 8 = 0 ∧ w.toNat / 2 ^ 25 = 0x20)))

/-- A word that issues through the slot's own checks: neither REP nor an unassigned word. -/
def plainWord : Instr → Prop
  | .rep _ _ _ => False
  | .illegalInstruction _ => False
  | i => isEvent i = false

/-! ### Stale operands and comparators (R147–R149, R157, R300) -/

/-- Register `h.reg` is read at distance `d`, below the latency of its producer (R147). -/
def shortAt (k : Task) (i : Instr) (h : Haz) (d : Nat) : Prop := h ∈ k.haz ∧ h.reg ∈ srcs i ∧ d = h.dist + weight i ∧ d < h.lat

/-- The order in which short reads are reported: distance, file (x, v, p), register (R157). -/
def fileNo : File → Nat
  | .x => 0
  | .v => 1
  | .p => 2
def reportedBefore (a b : Haz × Nat) : Prop :=
  a.2 < b.2 ∨ (a.2 = b.2 ∧ (fileNo a.1.reg.file < fileNo b.1.reg.file ∨ (fileNo a.1.reg.file = fileNo b.1.reg.file ∧ a.1.reg.num < b.1.reg.num)))

/-- The slot issues a word that only its short reads keep from running. -/
def issuesShort (s : State) (i : Instr) : Prop :=
  plainWord i ∧ s.inHandler = false ∧ s.canIssue s.cur = true ∧ s.matWait i = false ∧ legal false s.accs i = true ∧ (s.task s.cur).rep = none ∧
    s.cmpMatch none = none ∧ interlocked (s.task s.cur) i = false ∧ s.sfuBusy i = false

/-- Comparator `n` of the tile watches the issuing task's pc now (R300, R301). -/
def watches (s : State) (n : Nat) : Prop :=
  let c := s.cmp s.curP s.curTile.phys
  let h := c.hbrk.toNat / 2 ^ (16 * n)
  let y := s.lpkg s.curL s.curP
  h % 2 = 1 ∧ h / 2 ^ (10 + s.curI) % 2 = 1 ∧ s.curI < 4 ∧ s.bank.pc.toNat / 4 = (c.pc[n % 4]).toNat / 4 ∧
    (match h / 2 ^ 8 % 4 with
     | 0 => True
     | 1 => y.sstep = (c.sval[n % 4]).toNat
     | 2 => y.reexec ≠ 0
     | _ => False)

/-- The state with the link written, when there is one. -/
def linked (s : State) : Option Reg → State
  | some d => s.wx d (s.bank.pc + 4)
  | none => s


/-! ### Control registers (R99, R137–R139, R177–R179, R277) -/

/-- A CSR instruction's destination, CSR number, and the value it writes, when it writes one (R177). -/
def csrOf (x : Reg → Word) : Instr → Option (Reg × Nat × (Word → Option Word))
  | .csrrw d c a => some (d, c.toNat, fun _ => some (x a))
  | .csrrs d c a => some (d, c.toNat, fun old => if a = 0 then none else some (old ||| x a))
  | .csrrc d c a => some (d, c.toNat, fun old => if a = 0 then none else some (old &&& ~~~ x a))
  | .csrrwi d c u => some (d, c.toNat, fun _ => some (u.zeroExtend 64))
  | .csrrsi d c u => some (d, c.toNat, fun old => if u = 0 then none else some (old ||| u.zeroExtend 64))
  | .csrrci d c u => some (d, c.toNat, fun old => if u = 0 then none else some (old &&& ~~~ u.zeroExtend 64))
  | _ => none

/-- The state after the write, when there is one. -/
def csrWritten (s : State) (c : Nat) : Option Word → State
  | some v => s.csrWrite c v
  | none => s

/-- What a thread slot reads in a CSR after writing `v` to it where it read `old`. -/
def csrField (floor mbSize : Nat) (old v : Word) (c : Nat) : Word :=
  let n := v.toNat
  if 0x810 ≤ c ∧ c ≤ 0x817 then BitVec.ofNat 64 (n % 2 ^ 32)
  else match c with
    | 0x800 => BitVec.ofNat 64 (n % 32)
    | 0x801 => if n % 8 < 6 then BitVec.ofNat 64 (n % 8) else old
    | 0x802 => BitVec.ofNat 64 (n % 32)
    | 0x803 => if n % 4 = 3 then old else BitVec.ofNat 64 (max floor (n % 4))
    | 0x804 => BitVec.ofNat 64 (n % 2 ^ 13)
    | 0x821 => BitVec.ofNat 64 (n % 256)
    | 0x822 => BitVec.ofNat 64 (n % 2 ^ 32)
    | 0x823 => if n % 4 = 3 then old else BitVec.ofNat 64 (n % 4)
    | 0x832 => if mbSize = 0 then 0 else BitVec.ofNat 64 (n % mbSize / 16 * 16)
    | _ => v

/-! ### Loads and stores (R167–R169) -/

/-- A load's destination, base, immediate, size and whether it sign-extends. -/
def loadOf : Instr → Option (Reg × Reg × BitVec 12 × Nat × Bool)
  | .lb d a i => some (d, a, i, 1, true)
  | .lh d a i => some (d, a, i, 2, true)
  | .lw d a i => some (d, a, i, 4, true)
  | .ld d a i => some (d, a, i, 8, true)
  | .lbu d a i => some (d, a, i, 1, false)
  | .lhu d a i => some (d, a, i, 2, false)
  | .lwu d a i => some (d, a, i, 4, false)
  | _ => none

/-- A store's source, base, immediate and size. -/
def storeOf : Instr → Option (Reg × Reg × BitVec 12 × Nat)
  | .sb v a i => some (v, a, i, 1)
  | .sh v a i => some (v, a, i, 2)
  | .sw v a i => some (v, a, i, 4)
  | .sd v a i => some (v, a, i, 8)
  | _ => none

/-- `n` bytes as a number, the first lowest. -/
def leBytes (n : Nat) (f : Nat → Byte) : Nat := (List.range n).foldr (fun k v => (f k).toNat + 256 * v) 0

/-- The register value of `n` loaded bytes. -/
def loaded (n : Nat) (signed : Bool) (f : Nat → Byte) : Word :=
  let u := leBytes n f
  if signed = true ∧ 2 ^ (8 * n - 1) ≤ u then BitVec.ofInt 64 ((u : Int) - 2 ^ (8 * n)) else BitVec.ofNat 64 u

/-- Byte k of a register. -/
def byteOf (v : Word) (k : Nat) : Byte := BitVec.ofNat 8 (v.toNat / 256 ^ k)

/-- No matrix request of the task holds a store range over some bytes; no request reads them (R269). -/
def noStoreRange (k : Task) (lo n : Nat) : Prop := ∀ m ∈ k.mreq, ∀ r, m.store = some r → r.hi < lo ∨ lo + n ≤ r.lo
def noFetchRange (k : Task) (lo n : Nat) : Prop := ∀ m ∈ k.mreq, ∀ r ∈ m.fetch, r.hi < lo ∨ lo + n ≤ r.lo

/-- A task of launch `l` on tile `t` may load from an address outside its own TM (R48, R63, R168, R366). -/
def readableAt (s : State) (l t va : Nat) : Prop :=
  match regionOf (s.launch l).desc.tmSize (s.launch l).desc.ntile va with
  | .peer u _ => (s.tile l u).retired = false
  | .devInfo _ => True
  | .l2p _ => True
  | .glob => ∃ g, s.xlate l (s.tilePkg l t) va = some g ∧ pteSec g.pte = false ∧ s.physOk g (s.launch l).dom = true
  | _ => False

/-- The dword `d` with `n` bytes from byte `o` on replaced by the low bytes of `v`. -/
def patch (d : Word) (o n : Nat) (v : Word) : Word :=
  BitVec.ofNat 64 (leBytes 8 fun k => if o ≤ k ∧ k < o + n then byteOf v (k - o) else byteOf d k)

/-! ### Copies, atomics, groups (R233–R251) -/

/-- Remote atomics: operation, source, address register (R243). -/
def atomicOf : Instr → Option (AOp × Reg × Reg)
  | .raddw v a => some (.addw, v, a)
  | .raddd v a => some (.addd, v, a)
  | .rfadds v a => some (.fadds, v, a)
  | .rmind v a => some (.mind, v, a)
  | .rmaxd v a => some (.maxd, v, a)
  | .rord v a => some (.ord, v, a)
  | .randd v a => some (.andd, v, a)
  | .rxord v a => some (.xord, v, a)
  | _ => none

/-- The word that an integer remote atomic leaves where `w` stood (R243). -/
def atomicValue (op : AOp) (w b : Word) : Option Word :=
  match op with
  | .addw => some (BitVec.ofNat 64 ((w.toNat + b.toNat) % 2 ^ 32))
  | .addd => some (w + b)
  | .mind => some (if b.toInt < w.toInt then b else w)
  | .maxd => some (if w.toInt < b.toInt then b else w)
  | .ord => some (w ||| b)
  | .andd => some (w &&& b)
  | .xord => some (w ^^^ b)
  | .fadds => none

/-- Group contributions: operation, value and group register (R248). -/
def gredOf : Instr → Option (GOp × Reg × Reg)
  | .gredAddd a b => some (.addd, a, b)
  | .gredMind a b => some (.mind, a, b)
  | .gredMaxd a b => some (.maxd, a, b)
  | .gredAndd a b => some (.andd, a, b)
  | .gredOrd a b => some (.ord, a, b)
  | .gredXord a b => some (.xord, a, b)
  | .gredFadds a b => some (.fadds, a, b)
  | .gredFmins a b => some (.fmins, a, b)
  | .gredFmaxs a b => some (.fmaxs, a, b)
  | _ => none

/-- Group results: operation, destination and group register, and the value of a group without contributions (R114, R115, R249). -/
def gresOf : Instr → Option (GOp × Reg × Reg × Word)
  | .gresAddd d a => some (.addd, d, a, 0)
  | .gresMind d a => some (.mind, d, a, 0x7FFFFFFFFFFFFFFF)
  | .gresMaxd d a => some (.maxd, d, a, 0x8000000000000000)
  | .gresAndd d a => some (.andd, d, a, 0xFFFFFFFFFFFFFFFF)
  | .gresOrd d a => some (.ord, d, a, 0)
  | .gresXord d a => some (.xord, d, a, 0)
  | .gresFadds d a => some (.fadds, d, a, 0)
  | .gresFmins d a => some (.fmins, d, a, 0x7F800000)
  | .gresFmaxs d a => some (.fmaxs, d, a, 0xFF800000)
  | _ => none

/-- Copy instructions: kind, destination, descriptor register (R234). -/
def copyOf : Instr → Option (CopyKind × Reg × Reg)
  | .cpget d a => some (.get, d, a)
  | .cpput d a => some (.put, d, a)
  | .cppeer d a => some (.peer, d, a)
  | _ => none

/-- A copy of the task with a tag up to `v` is still in flight (R237). -/
def copyOpen (s : State) (v : Word) : Prop := ∃ c ∈ s.curTile.copies, c.task = s.curI ∧ c.tag.toNat ≤ v.toNat

/-- What a queued effect of the issuing slot is, with the task's key (R54). -/
def keyed (s : State) (e : Effect) : Pend := { tile := s.curT, task := s.curI, seq := s.bank.seq, eff := e }

/-! ### REP (R150, R151) -/

/-- A stepped field names a vector register or an accumulator that exists in the last repetition (R151). -/
def stepFits (accs last : Nat) : StepField → Prop
  | .no => False
  | .vec r => r.toNat + last < 32
  | .acc m => m + last < accs

/-- A field moved by some registers. -/
def moved (k : Nat) : StepField → StepField
  | .no => .no
  | .vec r => .vec (r + BitVec.ofNat 5 k)
  | .acc m => .acc (m + k)

/-! ### Vector memory (R211–R219) -/

/-- Lane k of width w of a vector register (R184, R185). -/
def lane (w : Nat) (v : Vec) (k : Nat) : BitVec w := v.extractLsb' (w * k) w

/-- A vector memory form: its register, the address of each byte lane, the active lanes, the base that VLDPI and VSTPI move, and
whether it is one contiguous piece. -/
structure VForm where
  reg : RegId
  addr : Nat → Word
  act : Nat → Bool
  bump : Option Reg
  contiguous : Bool

/-- The address of byte lane j of the element forms. -/
def elemAddr (ea : Nat → Word) (j : Nat) : Word := ea (j / 4) + BitVec.ofNat 64 (j % 4)

/-- The load forms (R212, R216). -/
def vloadOf (s : State) : Instr → Option VForm
  | .vld v a g => some ⟨⟨.v, v.toNat⟩, fun j => s.rx a + BitVec.ofNat 64 j, (s.bank.rg g).getLsbD, none, true⟩
  | .vldpi v a g => some ⟨⟨.v, v.toNat⟩, fun j => s.rx a + BitVec.ofNat 64 j, (s.bank.rg g).getLsbD, some a, true⟩
  | .vlds v a b g => some ⟨⟨.v, v.toNat⟩, elemAddr fun i => s.rx a + BitVec.ofNat 64 i * s.rx b, (s.bank.rg g).getLsbD, none, false⟩
  | .vgath v a i g =>
    some ⟨⟨.v, v.toNat⟩, elemAddr fun k => s.rx a + (lane 32 (s.bank.rv i) k).zeroExtend 64, (s.bank.rg g).getLsbD, none, false⟩
  | .pldr p a => some ⟨⟨.p, p.toNat⟩, fun j => s.rx a + BitVec.ofNat 64 j, fun j => decide (j < 32), none, true⟩
  | _ => none

/-- The store forms (R212, R217). -/
def vstoreOf (s : State) : Instr → Option VForm
  | .vst v a g => some ⟨⟨.v, v.toNat⟩, fun j => s.rx a + BitVec.ofNat 64 j, (s.bank.rg g).getLsbD, none, true⟩
  | .vstpi v a g => some ⟨⟨.v, v.toNat⟩, fun j => s.rx a + BitVec.ofNat 64 j, (s.bank.rg g).getLsbD, some a, true⟩
  | .vsts v a b g => some ⟨⟨.v, v.toNat⟩, elemAddr fun i => s.rx a + BitVec.ofNat 64 i * s.rx b, (s.bank.rg g).getLsbD, none, false⟩
  | .vscat v a i g =>
    some ⟨⟨.v, v.toNat⟩, elemAddr fun k => s.rx a + (lane 32 (s.bank.rv i) k).zeroExtend 64, (s.bank.rg g).getLsbD, none, false⟩
  | .pstr p a => some ⟨⟨.p, p.toNat⟩, fun j => s.rx a + BitVec.ofNat 64 j, fun j => decide (j < 32), none, true⟩
  | _ => none

/-- The state with the base moved. -/
def bumped (s : State) (f : VForm) : State :=
  match f.bump with
  | some a => s.wx a (s.rx a + 256)
  | none => s

/-- The addresses are aligned as R213 asks: a contiguous piece's always, an element's when one of its bytes is active. -/
def VForm.aligned (f : VForm) : Prop :=
  if f.contiguous then (f.addr 0).toNat % 4 = 0 else ∀ j, j < 256 → f.act j = true → (f.addr (j / 4 * 4)).toNat % 4 = 0

/-- Active byte lanes are in own TM. -/
def VForm.inOwn (f : VForm) (s : State) : Prop := ∀ j, j < 256 → f.act j = true → (f.addr j).toNat < (s.launch s.curL).desc.tmSize

/-- Two byte lanes lie in one piece (R211). -/
def VForm.together (f : VForm) (b c : Nat) : Prop := f.contiguous = true ∨ b / 4 = c / 4

/-- What check `n` of R214 (1 the regions, 2 retirement, 3 translation, 4 permission, 5 ownership) finds wrong with active byte lane b of a
load, or a store, of task i on tile t (R46, R48, R50, R63, R366). -/
def VForm.bad (f : VForm) (s : State) (l t i : Nat) (st : Bool) (n b : Nat) : Prop :=
  let x := s.launch l
  let reg := fun c => regionOf x.desc.tmSize x.desc.ntile (f.addr c).toNat
  let va := (f.addr b).toNat
  match n, reg b with
  | 1, r => r = .none ∨ r = .handlerWin ∨ ∃ c, c < b ∧ f.act c = true ∧ f.together c b ∧ (reg c).tag ≠ r.tag
  | 2, .peer u _ => (s.tile l u).retired = true
  | 3, .glob => s.xlate l (s.tilePkg l t) va = none
  | 4, .glob => ∃ g, s.xlate l (s.tilePkg l t) va = some g ∧ (pteSec g.pte = true ∨ s.physOk g x.dom = false ∨
      (st = true ∧ (pteW g.pte = false ∨ s.isRed l g va = true ∨ x.inCounters va = true)))
  | 4, .devInfo _ => st = true
  | 4, .l2p _ => st = true
  | 5, .own o => if st then (s.tile l t).owner o ≠ .own i else ((s.tile l t).owner o).isEngine = true
  | _, _ => False

/-- The cause of a failing check of R214. -/
def badCause (n : Nat) : BitVec 8 := if n = 2 then 0x06 else if n = 3 then 0x05 else if n = 5 then 0x04 else 0x03

/-- No range of the task's matrix requests holds an active byte (R269). -/
def VForm.free (f : VForm) (k : Task) (writes : Bool) : Prop :=
  ∀ j, j < 256 → f.act j = true → noStoreRange k (f.addr j).toNat 1 ∧ (writes = true → noFetchRange k (f.addr j).toNat 1)

/-! ### Floating-point elements (R110, R111, R189–R203, R209) -/

/-- A form that computes element by element: destination, element width, elements processed, which are active, whether each
rounding takes a draw, and an element's code and flags from its number and its draw. -/
structure FpForm where
  dst : Reg
  width : Nat
  count : Nat
  act : Nat → Bool
  draws : Bool
  elem : Nat → Nat → Nat × FFlags

/-- The code in lane k of width w. -/
def code (w : Nat) (v : Vec) (k : Nat) : Nat := (lane w v k).toNat

/-- A form on elements of one type. -/
def fpLanes (s : State) (es : FpTy) (d : Reg) (g : Pg) (draws : Bool) (f : Nat → Nat → Nat × FFlags) : FpForm :=
  ⟨d, 8 * es.size, 256 / es.size, fun k => (s.bank.rg g).getLsbD (es.size * k), draws && s.rmode == .sr, f⟩

/-- A form with an immediate: every element is active. -/
def viLanes (s : State) (es : ViTy) (d : Reg) (draws : Bool) (f : Nat → Nat → Nat × FFlags) : FpForm :=
  ⟨d, 8 * (viTy es).size, 256 / (viTy es).size, fun _ => true, draws && s.rmode == .sr, f⟩

/-- The value of the immediate: FP32 forms take a BF16 code, the top half of the FP32 one (R133, R209). -/
def viValue (es : ViTy) (imm : BitVec 16) : FVal := fd (fpFmt (viTy es)) (if es = .f32 then imm.toNat * 2 ^ 16 else imm.toNat)

/-- The element forms of floating point. -/
def fpForm (s : State) : Instr → Option FpForm
  | .vfadd es d a b g => some (fpLanes s es d g true fun k r =>
      fvRound (fpFmt es) s.rmode r (fvAdd s.rmode (fd (fpFmt es) (code (8 * es.size) (s.bank.rv a) k)) (fd (fpFmt es) (code (8 * es.size) (s.bank.rv b) k))))
  | .vfsub es d a b g => some (fpLanes s es d g true fun k r =>
      fvRound (fpFmt es) s.rmode r (fvAdd s.rmode (fd (fpFmt es) (code (8 * es.size) (s.bank.rv a) k)) (fd (fpFmt es) (code (8 * es.size) (s.bank.rv b) k)).neg))
  | .vfmul es d a b g => some (fpLanes s es d g true fun k r =>
      fvRound (fpFmt es) s.rmode r (fvMul (fd (fpFmt es) (code (8 * es.size) (s.bank.rv a) k)) (fd (fpFmt es) (code (8 * es.size) (s.bank.rv b) k))))
  | .vfma es d a b g => some (fpLanes s es d g true fun k r =>
      fvRound (fpFmt es) s.rmode r (fvFma s.rmode (fd (fpFmt es) (code (8 * es.size) (s.bank.rv d) k))
        (fd (fpFmt es) (code (8 * es.size) (s.bank.rv a) k)) (fd (fpFmt es) (code (8 * es.size) (s.bank.rv b) k))))
  | .vfnms es d a b g => some (fpLanes s es d g true fun k r =>
      fvRound (fpFmt es) s.rmode r (fvFma s.rmode (fd (fpFmt es) (code (8 * es.size) (s.bank.rv d) k))
        (fd (fpFmt es) (code (8 * es.size) (s.bank.rv a) k)).neg (fd (fpFmt es) (code (8 * es.size) (s.bank.rv b) k))))
  | .vfmin es d a b g => some (fpLanes s es d g false fun k r =>
      fvRound (fpFmt es) s.rmode r (fvMin (fd (fpFmt es) (code (8 * es.size) (s.bank.rv a) k)) (fd (fpFmt es) (code (8 * es.size) (s.bank.rv b) k))))
  | .vfmax es d a b g => some (fpLanes s es d g false fun k r =>
      fvRound (fpFmt es) s.rmode r (fvMax (fd (fpFmt es) (code (8 * es.size) (s.bank.rv a) k)) (fd (fpFmt es) (code (8 * es.size) (s.bank.rv b) k))))
  | .vfabs es d a g => some (fpLanes s es d g false fun k _ => (code (8 * es.size) (s.bank.rv a) k % 2 ^ (8 * es.size - 1), 0))
  | .vfneg es d a g => some (fpLanes s es d g false fun k _ => ((code (8 * es.size) (s.bank.rv a) k + 2 ^ (8 * es.size - 1)) % 2 ^ (8 * es.size), 0))
  | .vfcpys es d a b g => some (fpLanes s es d g false fun k _ =>
      (code (8 * es.size) (s.bank.rv a) k % 2 ^ (8 * es.size - 1) + code (8 * es.size) (s.bank.rv b) k / 2 ^ (8 * es.size - 1) * 2 ^ (8 * es.size - 1), 0))
  | .vfcvt es src d a g => some { fpLanes s es d g true fun k r => cvt src (fpFmt es) s.rmode r (code (8 * src.size) (s.bank.rv a) k) with
      count := 256 / max src.size es.size }
  | .vcvtn d a f g => if narrowOk (s.fmtReg f) then some ⟨d, (fmtClass (s.fmtReg f)).bits, 64, fun k => (s.bank.rg g).getLsbD (4 * k), s.rmode == .sr,
      fun k r => fencode (fmtOf (s.fmtReg f)) s.rmode r (fd fp32 (code 32 (s.bank.rv a) k))⟩ else none
  | .vcvtw d a f g => if narrowOk (s.fmtReg f) then some ⟨d, 32, 64, fun k => (s.bank.rg g).getLsbD (4 * k), false,
      fun k _ => (widen (s.fmtReg f) (code (fmtClass (s.fmtReg f)).bits (s.bank.rv a) k), 0)⟩ else none
  | .vscale d a b g => some ⟨d, 32, 64, fun k => (s.bank.rg g).getLsbD (4 * k), s.rmode == .sr, fun k r =>
      let x := fd fp32 (code 32 (s.bank.rv a) k)
      let e := code 8 (s.bank.rv b) (k / 32)
      if e = 255 then (0x7FC00000, if x.isSig then .nv else 0) else fencode fp32 s.rmode r (x.scale ((e : Int) - 127))⟩
  | .vaddi es d imm => some (viLanes s es d true fun k r =>
      fvRound (fpFmt (viTy es)) s.rmode r (fvAdd s.rmode (fd (fpFmt (viTy es)) (code (8 * (viTy es).size) (s.bank.rv d) k)) (viValue es imm)))
  | .vmuli es d imm => some (viLanes s es d true fun k r =>
      fvRound (fpFmt (viTy es)) s.rmode r (fvMul (fd (fpFmt (viTy es)) (code (8 * (viTy es).size) (s.bank.rv d) k)) (viValue es imm)))
  | .vmaxi es d imm => some (viLanes s es d false fun k r =>
      fvRound (fpFmt (viTy es)) s.rmode r (fvMax (fd (fpFmt (viTy es)) (code (8 * (viTy es).size) (s.bank.rv d) k)) (viValue es imm)))
  | _ => none

/-- Active elements below k. -/
def FpForm.below (f : FpForm) (k : Nat) : Nat := ((List.range k).filter f.act).length

/-- Element k with the draw it takes: one draw for each active element, ascending (R104, R106). -/
def FpForm.at (f : FpForm) (s : State) (k : Nat) : Nat × FFlags := f.elem k (s.drawBits (if f.draws then f.below k else 0))

/-- The flags that the active elements raise together. -/
def FpForm.flags (f : FpForm) (s : State) : FFlags := ((List.range f.count).filter f.act).foldl (fun a k => a ||| (f.at s k).2) 0

/-! ### Integer elements, moves, permutes (R204–R207, R194, R209) -/

/-- A form without flags: destination, element width, active elements, and the element's value. -/
structure IntForm where
  dst : Reg
  width : Nat
  act : Nat → Bool
  elem : Nat → Nat

/-- A form on the lanes of two registers. -/
def twoLanes (s : State) (es : IntTy) (d a b : Reg) (g : Pg) (f : (w : Nat) → BitVec w → BitVec w → BitVec w) : IntForm :=
  ⟨d, 8 * es.size, fun k => (s.bank.rg g).getLsbD (es.size * k), fun k => (f (8 * es.size) (lane _ (s.bank.rv a) k) (lane _ (s.bank.rv b) k)).toNat⟩

/-- A form whose element k is found by a rule. -/
def ruled (s : State) (es : IntTy) (d : Reg) (g : Pg) (f : (w : Nat) → Nat → Nat → BitVec w) : IntForm :=
  ⟨d, 8 * es.size, fun k => (s.bank.rg g).getLsbD (es.size * k), fun k => (f (8 * es.size) (256 / es.size) k).toNat⟩

def intForm (s : State) : Instr → Option IntForm
  | .vadd es d a b g => some (twoLanes s es d a b g fun _ x y => x + y)
  | .vsub es d a b g => some (twoLanes s es d a b g fun _ x y => x - y)
  | .vmul es d a b g => some (twoLanes s es d a b g fun _ x y => x * y)
  | .vmulh es d a b g => some (twoLanes s es d a b g fun w x y => BitVec.ofInt w (x.toInt * y.toInt / 2 ^ w))
  | .vand es d a b g => some (twoLanes s es d a b g fun _ x y => x &&& y)
  | .vor es d a b g => some (twoLanes s es d a b g fun _ x y => x ||| y)
  | .vxor es d a b g => some (twoLanes s es d a b g fun _ x y => x ^^^ y)
  | .vsll es d a b g => some (twoLanes s es d a b g fun w x y => x <<< (y.toNat % w))
  | .vsrl es d a b g => some (twoLanes s es d a b g fun w x y => x >>> (y.toNat % w))
  | .vsra es d a b g => some (twoLanes s es d a b g fun w x y => x.sshiftRight (y.toNat % w))
  | .vmin es d a b g => some (twoLanes s es d a b g fun _ x y => if y.toInt < x.toInt then y else x)
  | .vmax es d a b g => some (twoLanes s es d a b g fun _ x y => if x.toInt < y.toInt then y else x)
  | .vminu es d a b g => some (twoLanes s es d a b g fun _ x y => if y.toNat < x.toNat then y else x)
  | .vmaxu es d a b g => some (twoLanes s es d a b g fun _ x y => if x.toNat < y.toNat then y else x)
  | .vsel d a b g => some ⟨d, 8, fun _ => true, fun j => ((if (s.bank.rg g).getLsbD j then lane 8 (s.bank.rv a) j else lane 8 (s.bank.rv b) j)).toNat⟩
  | .vperm es d a b g => some (ruled s es d g fun w n k => if (lane w (s.bank.rv b) k).toNat < n then lane w (s.bank.rv a) (lane w (s.bank.rv b) k).toNat else 0)
  | .vslup es d b a g => some (ruled s es d g fun w _ k => if (s.rx a).toNat ≤ k then lane w (s.bank.rv b) (k - (s.rx a).toNat) else 0)
  | .vsldn es d b a g => some (ruled s es d g fun w n k => if k + (s.rx a).toNat < n then lane w (s.bank.rv b) (k + (s.rx a).toNat) else 0)
  | .vzip es d a b g => some (ruled s es d g fun w _ k => lane w (s.bank.rv (if k % 2 = 0 then a else b)) (k / 2))
  | .vunzip es d a b g => some (ruled s es d g fun w n k => if 2 * k < n then lane w (s.bank.rv a) (2 * k) else lane w (s.bank.rv b) (2 * k - n))
  | .viota es d g => some (ruled s es d g fun w _ k => BitVec.ofNat w ((List.range k).filter fun m => (s.bank.rg g).getLsbD (es.size * m)).length)
  | .vdupx es d a g => some (ruled s es d g fun w _ _ => (s.rx a).setWidth w)
  | .visumr es d a g => some ⟨d, 8 * es.size, fun _ => true, fun k => if k = 0 then
      (((List.range (256 / es.size)).filter fun m => (s.bank.rg g).getLsbD (es.size * m)).foldl (fun v m => v + code (8 * es.size) (s.bank.rv a) m) 0) else 0⟩
  | .vli es d imm => if es = .fp8 ∧ ¬(narrowOk (s.fmtReg 0) = true ∧ fmtClass (s.fmtReg 0) = .c8) then none
      else if es = .f32 then some ⟨d, 32, fun _ => true, fun _ => imm.toNat * 2 ^ 16⟩ else some ⟨d, 16, fun _ => true, fun _ => imm.toNat⟩
  | _ => none

/-! ### Predicate results (R186, R191, R208) -/

/-- A form that writes a predicate: destination, the bit of byte lane j, and the flags. -/
structure PredForm where
  dst : PReg
  bit : Nat → Bool
  flags : FFlags

/-- An FP compare: NaNs are unordered; NV for a signalling NaN, and in the ordering compares for any NaN, of an active element. -/
def fpCompare (s : State) (es : FpTy) (d : PReg) (a b : Reg) (g : Pg) (quiet : Bool) (rel : FVal → FVal → Bool) : PredForm :=
  let act := fun k => (s.bank.rg g).getLsbD (es.size * k)
  let x := fun k => fd (fpFmt es) (code (8 * es.size) (s.bank.rv a) k)
  let y := fun k => fd (fpFmt es) (code (8 * es.size) (s.bank.rv b) k)
  ⟨d, fun j => act (j / es.size) && rel (x (j / es.size)) (y (j / es.size)),
    if (List.range (256 / es.size)).any fun k => act k && ((x k).isSig || (y k).isSig || (!quiet && ((x k).isNan || (y k).isNan))) then .nv else 0⟩

/-- An integer compare. -/
def intCompare (s : State) (es : IntTy) (d : PReg) (a b : Reg) (g : Pg) (rel : (w : Nat) → BitVec w → BitVec w → Bool) : PredForm :=
  ⟨d, fun j => (s.bank.rg g).getLsbD (es.size * (j / es.size)) &&
    rel (8 * es.size) (lane _ (s.bank.rv a) (j / es.size)) (lane _ (s.bank.rv b) (j / es.size)), 0⟩

def predForm (s : State) : Instr → Option PredForm
  | .vfceq es d a b g => some (fpCompare s es d a b g true fvEq)
  | .vfclt es d a b g => some (fpCompare s es d a b g false (fvLt false))
  | .vfcle es d a b g => some (fpCompare s es d a b g false fun x y => fvLt false x y || fvEq x y)
  | .viceq es d a b g => some (intCompare s es d a b g fun _ x y => x == y)
  | .viclt es d a b g => some (intCompare s es d a b g fun _ x y => decide (x.toInt < y.toInt))
  | .vicltu es d a b g => some (intCompare s es d a b g fun _ x y => decide (x.toNat < y.toNat))
  | .pwhilelt es d a b => some ⟨d, fun j => decide ((s.rx a).toInt + (j / es.size : Nat) < (s.rx b).toInt), 0⟩
  | .plogicAnd d a b => some ⟨d, fun j => (s.bank.rp a).getLsbD j && (s.bank.rp b).getLsbD j, 0⟩
  | .plogicOr d a b => some ⟨d, fun j => (s.bank.rp a).getLsbD j || (s.bank.rp b).getLsbD j, 0⟩
  | .plogicXor d a b => some ⟨d, fun j => (s.bank.rp a).getLsbD j != (s.bank.rp b).getLsbD j, 0⟩
  | .plogicAndn d a b => some ⟨d, fun j => (s.bank.rp a).getLsbD j && !(s.bank.rp b).getLsbD j, 0⟩
  | .pfirst es d a => some ⟨d, fun j => (s.bank.rp a).getLsbD (es.size * (j / es.size)) &&
      (List.range (j / es.size)).all fun k => !(s.bank.rp a).getLsbD (es.size * k), 0⟩
  | _ => none

/-- VMVXS and PCNT write an x register (R206, R208). -/
def scalarForm (s : State) : Instr → Option (Reg × Word)
  | .vmvxs es d v a => some (d, if (s.rx a).toNat < 256 / es.size then (lane (8 * es.size) (s.bank.rv v) (s.rx a).toNat).signExtend 64 else 0)
  | .pcnt es d p => some (d, BitVec.ofNat 64 ((List.range (256 / es.size)).filter fun k => (s.bank.rp p).getLsbD (es.size * k)).length)
  | _ => none

/-! ### Reductions and the SFU (R117, R192, R193, R197, R198) -/

/-- The pairwise tree over 2^k leaves: the tree of the lower half joined with that of the upper half. -/
def pairTree {α : Type} (op : α → α → α) : Nat → (Nat → α) → α
  | 0, f => f 0
  | k + 1, f => op (pairTree op k f) (pairTree op k fun i => f (i + 2 ^ k))

/-- The code and flags of VFSUMR and VFMAXR: element type, destination, operand, predicate, the idle leaf and the join. -/
def fpReduce (s : State) : Instr → Option (FpTy × Reg × Reg × Pg × Nat × (FVal → FVal → FVal × FFlags))
  | .vfsumr es d a g => some (es, d, a, g, 2 ^ (8 * es.size - 1), fvAdd s.rmode.noSr)
  | .vfmaxr es d a g => some (es, d, a, g, 2 ^ (8 * es.size - 1) + (fpFmt es).infCode, fvMax)
  | _ => none

/-- SFU instructions: function number, type, destination, operands, predicate (R197). -/
def sfuOf : Instr → Option (BitVec 6 × FpTy × Reg × Reg × Reg × Pg)
  | .vfrcp es d a g => some (0x10, es, d, a, a, g)
  | .vfrsq es d a g => some (0x11, es, d, a, a, g)
  | .vfsqrt es d a g => some (0x12, es, d, a, a, g)
  | .vfdiv es d a b g => some (0x13, es, d, a, b, g)
  | .vfexp2 es d a g => some (0x14, es, d, a, a, g)
  | .vflog2 es d a g => some (0x15, es, d, a, a, g)
  | .vftanh es d a g => some (0x16, es, d, a, a, g)
  | _ => none

/-- Element k of a request and its flags. -/
def sfuAt (q : SfuReq) (k : Nat) : Nat × FFlags :=
  sfuFn q.fn.toNat q.es (rmodeOf q.rmode).noSr (code (8 * q.es.size) q.a k) (code (8 * q.es.size) q.b k)

/-- The elements a request processes. -/
def sfuActive (q : SfuReq) : List Nat := (List.range (256 / q.es.size)).filter fun k => q.act.getLsbD (q.es.size * k)

/-! ### Matrix requests and the quasi-random unit (R256–R282) -/

/-- word0 of a descriptor after the instruction: BASE moved by TPITCH when PI is set (R261). -/
def movedBase (w0 w1 : Word) : Word :=
  if w1.getLsbD 27 then
    BitVec.ofNat 64 (w0.toNat / 2 ^ 21 * 2 ^ 21) + ((w0.setWidth 21 + ((w1.setWidth 16).signExtend 21 : BitVec 21)).zeroExtend 64)
  else w0

/-- A request that has just been queued. -/
def newReq (s : State) (m : Acc) (op : MOp) (fetch : List Range) (store : Option Range) : MReq :=
  { acc := s.curI * s.curLaunch.desc.accs + m.toNat, op := op, fetch := fetch, store := store, started := false, age := s.free }

/-- Queuing a request changes only the task's queue, the pairs' bases, and the model's issue counter (log entry 9). -/
def Queued (i : Instr) (s : State) (q : MReq) (pairs : List Reg) : Prop :=
  ∃ u, exec i s = .next u ∧ { u with tasks := s.tasks, free := s.free } = s ∧ (∀ k, k ≠ s.cur → u.task k = s.task k) ∧
    (u.task s.cur).mreq = (s.task s.cur).mreq ++ [q] ∧ u.bank.v = s.bank.v ∧ u.bank.p = s.bank.p ∧ u.bank.tflags = s.bank.tflags ∧
    ∀ r, u.rx r = if r ∈ pairs ∧ r ≠ 0 then movedBase (s.rx r) (s.rx (r + 1)) else s.rx r

/-- The row that x[rs1] and the repetition name, when it is one (R272, R273). -/
def rowOf (s : State) (v : Word) : Option Nat :=
  let it := match (s.task s.cur).rep with
    | some (_, n) => n.toNat
    | none => 0
  if v.toNat < 64 ∧ v.toNat + it < 64 then some (v.toNat + it) else none

/-- The stream instructions (R282). -/
def usesStream : Instr → Bool
  | .qrv _ _ => true
  | .qrvf _ _ => true
  | .qrx _ _ _ => true
  | .qrnext => true
  | .qrskip _ => true
  | .pipv _ => true
  | _ => false

/-! ### Events -/

/-- Nothing but package `p` differs. -/
def OnlyPkg (p : Nat) (s t : State) : Prop := { t with pkgs := s.pkgs } = s ∧ ∀ q, q ≠ p → t.pkg q = s.pkg q

/-- The event happens, package `p` becomes `x`, and nothing else changes. -/
def PkgBecomes (i : Instr) (s : State) (p : Nat) (x : Pkg) : Prop := ∃ t, exec i s = .next t ∧ OnlyPkg p s t ∧ t.pkg p = x

/-- The demanded level follows the higher of the pins and PWRSTEP; a change of it deasserts PSTEPACK and starts a walk (R373, R374). -/
def Demands (w u : Power) : Prop :=
  u.target.toNat = max u.pins.toNat u.pwrstep.toNat ∧ (u.target = w.target → u.ack = w.ack ∧ u.pending = w.pending) ∧
    (u.target ≠ w.target → u.ack = false ∧ u.pending = true)

/-- Lane `n` of port `port` becomes `v`, the port's registers become those of `y`, and nothing else changes but what a log
entry brings, when there is one. -/
def LaneBecomes (s t : State) (p port n : Nat) (y : Port) (v : Lane) : Prop :=
  (((t.pkg p).port port).lane n = v ∧ ∀ m, m ≠ n → ((t.pkg p).port port).lane m = ((s.pkg p).port port).lane m) ∧
    { (t.pkg p).port port with lanes := y.lanes } = y ∧ ∀ q, q ≠ port → (t.pkg p).port q = (s.pkg p).port q

/-- The only work of a launch is on one package. -/
def soleLp (x : Launch) (p : Nat) (y : LPkg) : Prop := x.pkgs = [p] ∧ x.lp = [(p, y)]

/-- The outcome of the launch's superstep on a package is open: before its vote, and while a frame of it has still to be sent
(R349, R390). -/
def openOn (s : State) (l p : Nat) : Prop :=
  (s.lpkg l p).phase ∈ [Phase.stage, .compute, .closing, .voted] ∨
    ((s.lpkg l p).phase = .sent ∧ ∃ f ∈ (s.pkg p).tx, f.votes l (s.lpkg l p).sstep (s.lpkg l p).reexec = true)

/-- A class B cause is raised on a package: it is among the causes, a vote that had not been sent is withdrawn, and nothing
else changes (R25, R349, R390). -/
def Raised (s t : State) (l p c : Nat) : Prop :=
  { t with launches := s.launches, pkgs := s.pkgs } = s ∧ (∀ m, m ≠ l → t.launch m = s.launch m) ∧
    c ∈ (t.lpkg l p).causes ∧ (∀ e ∈ (s.lpkg l p).causes, e ∈ (t.lpkg l p).causes) ∧
    (t.lpkg l p).phase = (if (s.lpkg l p).phase = .voted ∨ (s.lpkg l p).phase = .sent then .closing else (s.lpkg l p).phase) ∧
    (∀ q, q ≠ p → t.pkg q = s.pkg q ∧ t.lpkg l q = s.lpkg l q) ∧ { t.pkg p with tx := (s.pkg p).tx } = s.pkg p

/-- No frame that announces flips of a launch waits anywhere, and none is missing (R36, R78). -/
def noneFlips (s : State) (l : Nat) : Prop :=
  ∀ e ∈ s.pkgs, e.2.failed = true ∨ ((∀ f ∈ e.2.tx, ∀ k pages, f.pay = .commit l k pages → pages = []) ∧
    ∀ r ∈ e.2.rx, ∃ f, r.1 = some f ∧ ∀ k pages, f.pay = .commit l k pages → pages = [])

/-- Making a page of a package dirty puts nothing into its event logs: it is dirty already, or DIRTY stays below DRAINBUD (R380, R387). -/
def quiet (s : State) (p ppn : Nat) : Prop :=
  let w := (s.pkg p).power
  (w.dirtyNew = none ∧ ppn ∈ w.dirtyOld) ∨ w.dirtyBytes + 65536 < w.drainbud.toNat

/-- No launch waits for its last notices, nor a trigger for those of the commit that met it. -/
def noneEnded (s : State) : Prop := ∀ e ∈ s.launches, (∀ y ∈ e.2.lp, y.2.phase ≠ .ended) ∧ (e.2.trigHeld = true → e.2.trigDone = true)

/-- A frame of the launch's run that some package has still to process, once its unsent votes and broadcast writes are withdrawn: a commit
notice that has not been sent, or a received or missing frame (R349). -/
def framesIn (s : State) (l : Nat) : Prop :=
  ∃ e ∈ s.pkgs, e.2.failed = false ∧ ((∃ f ∈ e.2.tx ++ e.2.txHeld, ∃ k pages, f.pay = .commit l k pages) ∨
    ∃ r ∈ e.2.rx, r.1 = none ∨ ∃ f, r.1 = some f ∧ f.ofLaunch l = true)

/-! ### Frames of a launch, launches that wait (R349, R353) -/

/-- No launch waits for a spare alone. -/
def noneWaiting (s : State) : Prop := ∀ e ∈ s.launches, e.2.lp = [] ∨ ∃ y ∈ e.2.lp, y.2.phase ≠ .waitSpare

/-- No frame of a launch's run waits anywhere, and none is missing. -/
def noFrames (s : State) (l : Nat) : Prop :=
  ∀ e ∈ s.pkgs, e.2.failed = true ∨ ((∀ f ∈ e.2.tx ++ e.2.txHeld, f.ofLaunch l = false) ∧ ∀ r ∈ e.2.rx, ∃ f, r.1 = some f ∧ f.ofLaunch l = false)

/-- Two schedules give a domain the same visits: none, or the same packages at the same places of rounds of one length (R344, R367). -/
def sameVisits (a b : List (BitVec 32)) (d : Nat) : Prop :=
  let v : List (BitVec 32) → List (BitVec 32) := fun c => c.filter entryValid
  (∀ e ∈ v a ++ v b, entryDom e ≠ d) ∨ ((v a).length = (v b).length ∧
    ∀ (n q : Nat), (∃ e : BitVec 32, (v a)[n]? = some e ∧ entryDom e = d ∧ entryPkg e = q) ↔ ∃ e : BitVec 32, (v b)[n]? = some e ∧ entryDom e = d ∧ entryPkg e = q)

/-! ### Commits (R23, R26, R54) -/

/-- Ascending key order (R54). -/
def below (e f : Pend) : Prop := e.tile < f.tile ∨ e.tile = f.tile ∧ (e.task < f.task ∨ e.task = f.task ∧ e.seq.toNat < f.seq.toNat)

/-- Of the effects that put something in one place, the one with the greatest key puts `b` there; of those of one instruction the last. -/
def LastPut {α : Type} (ps : List Pend) (puts : Pend → α → Prop) (b : α) : Prop :=
  ∃ (j : Nat) (e : Pend), ps[j]? = some e ∧ puts e b ∧ ∀ (i : Nat) (f : Pend) (c : α), ps[i]? = some f → puts f c → i = j ∨ below f e ∨ (¬below e f ∧ i < j)

/-- The only package of a launch can commit: no digest is compared, no launch fault waits, no reshape follows, every tile runs; and the
model's launch numbers are below its counter. -/
structure OneCommit (s : State) (l p : Nat) (y : LPkg) (reshape : Bool) : Prop where
  pkg : p < 192
  sole : soleLp (s.launch l) p y
  digest : (s.launch l).desc.digestMode ≠ 2
  fault : (s.launch l).fault = none
  stays : (s.launch l).desc.elastic = true → reshape = false ∧ (s.launch l).desc.minDies ≤ ((s.launch l).diesOn p).length
  runs : ∀ n, n < (s.launch l).desc.ntile → (s.tile l n).parked = false
  keys : ∀ e ∈ s.launches, e.1 ≤ s.free

/-- The package's vote to commit is complete. -/
def votesCommit (y : LPkg) (v : Vote) : Prop := y.phase = .voted ∧ y.vote = some v ∧ v.abort = false

/-- Some task of the launch on the package stands at its SYNC. -/
def someSync (s : State) (l p : Nat) : Prop :=
  ∃ n i rd f, n < (s.launch l).desc.ntile ∧ i < (s.launch l).desc.tasks ∧ s.tilePkg l n = p ∧ (s.task (.thread l n i)).status = .atSync rd f

/-- No task has queued a LAUNCH. -/
def noLaunches (s : State) (l : Nat) : Prop := ∀ e ∈ (s.launch l).pends, ∀ va q, e.eff ≠ .launch va q

/-- Byte o of committed TM of tile n, as plain writes among effects leave it (R57). -/
def tmPuts (n o : Nat) (e : Pend) (b : Byte) : Prop := ∃ own a bs, e.eff = .tmWrite n own a bs ∧ a ≤ o ∧ o < a + bs.length ∧ b = bs.getD (o - a) 0

/-- A global write of the byte at a VA (R65). -/
def gPuts (va : Nat) (e : Pend) (b : Byte) : Prop := ∃ w bs, e.eff = .gWrite w bs ∧ w.toNat ≤ va ∧ va < w.toNat + bs.length ∧ b = bs.getD (va - w.toNat) 0

/-- The result of a group (R114, R115, R249): the sum, the least or greatest signed value, or the bitwise combination; of FP32
contributions the exact sum rounded once, or the minimum or maximum. -/
def gredValue (op : GOp) (vals : List Word) : Word :=
  match op with
  | .addd => BitVec.ofNat 64 (vals.map (·.toNat)).sum
  | .mind => vals.foldl (fun a b => if b.toInt < a.toInt then b else a) 0x7FFFFFFFFFFFFFFF
  | .maxd => vals.foldl (fun a b => if a.toInt < b.toInt then b else a) 0x8000000000000000
  | .andd => vals.foldl (fun a b => a &&& b) 0xFFFFFFFFFFFFFFFF
  | .ord => vals.foldl (fun a b => a ||| b) 0
  | .xord => vals.foldl (fun a b => a ^^^ b) 0
  | .fadds => BitVec.ofNat 64 (fsumExact (vals.map fun v => fd fp32 v.toNat)).1
  | op => (combine op vals).1

/-- The contributions of a superstep's effects to a group and operation. -/
def gredVals (ps : List Pend) (g : Nat) (op : GOp) : List Word :=
  ps.filterMap fun e => match e.eff with
    | .gred g' op' v => if g' = g ∧ op' = op then some v else none
    | _ => none

/-- The level-2 entry of a page in a package's table of a domain stands at `a` (R62). -/
def entryAt (s : State) (p d vpn a : Nat) : Prop :=
  let va := vpn * 65536
  let root := ((s.pkg p).dom d).cfg.root
  ∃ n1 n2, tableNext ((s.pkg p).hbm.nat (root + 8 * bits va 40 7) 8) = some n1 ∧ tableNext ((s.pkg p).hbm.nat (n1 + 8 * bits va 28 12) 8) = some n2 ∧
    a = n2 + 8 * bits va 16 12

/-- None of the tables that lead to the entry lies in a physical page. -/
def tablesOff (s : State) (p d vpn ppn : Nat) : Prop :=
  let va := vpn * 65536
  let root := ((s.pkg p).dom d).cfg.root
  root % 65536 = 0 ∧ root / 65536 ≠ ppn ∧ ∀ n1 n2, tableNext ((s.pkg p).hbm.nat (root + 8 * bits va 40 7) 8) = some n1 →
    tableNext ((s.pkg p).hbm.nat (n1 + 8 * bits va 28 12) 8) = some n2 → n1 / 65536 ≠ ppn ∧ n2 / 65536 ≠ ppn

/-- An entry whose PA is another page (R62, R66). -/
def withPa (e ppn : Nat) : Nat := e % 65536 + ppn * 65536 + e / 2 ^ 52 * 2 ^ 52

/-! ### Pairs of tiles (R291) -/

/-- Tile `b` of the package is named by a field of the pairing entry of a physical tile: its valid bit is set, and `b` is a usable tile of the
cluster other than the tile itself. -/
def paired (x : Pkg) (phys lo b : Nat) : Prop :=
  let e := (Tab.get x.pairs 0 (phys % 2048)).toNat / 2 ^ lo
  let c := phys / 16 * 16 + e % 16
  e / 16 % 2 = 1 ∧ c ≠ phys ∧ b = c % 2048 ∧ x.usable (c / 256 % 8) (c / 16 % 16) (c % 16) = true

/-! ### Delta pools (R52) -/

/-- What some effects hold in the delta pool of tile `t`, in bytes: 64 for each distinct line of its TM that one writes, 16 for a remote
atomic, 16 and the payload rounded up to 16 for a message. -/
def charge (ps : List Pend) (t c : Nat) : Prop :=
  ∃ lines : List Nat, lines.Nodup ∧ (∀ j, j ∈ lines ↔ ∃ e ∈ ps, ∃ own a bs, e.eff = .tmWrite t own a bs ∧ a / 64 ≤ j ∧ 64 * j < a + bs.length) ∧
    c = 64 * lines.length + (ps.map fun e => match e.eff with
      | .atomic u _ _ _ => if u = t then 16 else 0
      | .msg u bs => if u = t then 16 + (bs.length + 15) / 16 * 16 else 0
      | _ => 0).sum

/-- What an access queued on a tile's pool, from `s` to `u`, raises on the tile's package while its outcome is open: 0x43 where the pool is
past its size, and nothing else (R52, R170). -/
def PoolChecked (s u : State) (l t : Nat) : Prop :=
  let p := s.tilePkg l t
  let past := ∃ c, charge (u.launch l).pends t c ∧ (s.launch l).desc.pool * 0x20000 < c
  (past → openOn s l p → 0x43 ∈ (u.lpkg l p).causes ∧ ∀ c ∈ (u.lpkg l p).causes, c = 0x43 ∨ c ∈ (s.lpkg l p).causes) ∧
    (¬past → (u.lpkg l p).causes = (s.lpkg l p).causes)

/-! ### Copies (R61, R233) -/

/-- A byte of the copy's TM side lies in block `b` (R51). -/
def CopyOn (c : CopyDesc) (b : Nat) : Prop := ∃ r k, r < c.rows ∧ k < c.bytes ∧ (c.tm + r * c.tpitch + k) / 2048 = b

/-- The row and byte of the remote side from which byte `b` of TM row `r` comes: blocks of 32 rows of 16-bit elements, or of 64 rows of
bytes, are transposed (R61). -/
def copySource (c : CopyDesc) (r b : Nat) : Nat × Nat :=
  if c.layout.toNat % 4 = 1 then (r / 32 * 32 + b / 2, 2 * (r % 32) + b % 2) else if c.layout.toNat % 4 = 2 then (r / 64 * 64 + b, r % 64) else (r, b)

/-- The byte that a copy into TM brings to byte `b` of row `r`: from global memory or a peer's committed TM (R235). -/
def copyByte (s : State) (l p : Nat) (k : CopyKind) (c : CopyDesc) (r b : Nat) : Byte :=
  let a := (c.remote.toNat + (copySource c r b).1 * c.rpitch + (copySource c r b).2) % 2 ^ 64
  match k, regionOf (s.launch l).desc.tmSize (s.launch l).desc.ntile a with
  | .peer, .peer t o => s.tmByte l t o
  | _, _ => s.globByte l p a

/-- The bytes that global writes among some effects bring, in order. -/
def gBytes (ps : List Pend) : List (Nat × Byte) :=
  ps.flatMap fun e => match e.eff with
    | .gWrite w bs => bs.zipIdx.map fun c => (w.toNat + c.2, c.1)
    | _ => []

/-! ### Checks of every byte of an access (R168, R234, R267) -/

/-- Check `n` is the first that some byte fails, and `a` the lowest byte that fails it. -/
def FirstFails (bad : Nat → Nat → Prop) (n a : Nat) : Prop := bad n a ∧ ∀ m b, bad m b → n < m ∨ n = m ∧ a ≤ b

/-- A byte of own TM lies in an ENGINE block (R50). -/
def engineAt (s : State) (l t o : Nat) : Prop := ∃ i, (s.tile l t).owner o = .engine i ∨ (s.tile l t).owner o = .fetch i

/-- The checks of bytes of own TM that an instruction reads: 0, in own TM; 1, in no ENGINE block (R50, R244, R279). -/
def readFails (s : State) (l t : Nat) (P : Nat → Prop) (n o : Nat) : Prop :=
  P o ∧ (n = 0 ∧ (s.launch l).desc.tmSize ≤ o ∨ n = 1 ∧ o < (s.launch l).desc.tmSize ∧ engineAt s l t o)

def readCause (n : Nat) : BitVec 8 := if n = 0 then 0x03 else 0x04

/-- The copy descriptor that 32 bytes hold (R233). -/
def copyAt (f : Nat → Byte) : CopyDesc :=
  let field := fun a n => leBytes n fun k => f (a + k)
  { remote := BitVec.ofNat 64 (field 0 8), tm := field 8 4, bytes := field 12 4, rows := field 16 4, rpitch := field 20 4, tpitch := field 24 4,
    layout := f 28, flags := f 29 }

/-- Its fields meet R233 and, for a copy of global memory into own TM or another one, R61. -/
def copyFits (f : Nat → Byte) (get : Prop) : Prop :=
  let c := copyAt f
  let code := c.layout.toNat
  1 ≤ c.bytes ∧ c.bytes ≤ 2097152 ∧ 1 ≤ c.rows ∧ c.rows ≤ 65536 ∧ c.rows * c.bytes ≤ 2097152 ∧ code < 3 ∧ c.flags.toNat < 2 ∧ f 30 = 0 ∧ f 31 = 0 ∧
    (code ≠ 0 → get ∧ c.bytes = 64 ∧ c.rows % (if code = 1 then 32 else 64) = 0 ∧ c.remote.toNat % 64 = 0 ∧ c.rpitch % 64 = 0 ∧ c.flags = 0)

/-- Step 4 of R234, for bytes of the remote side: 0, a region that the copy may reach; 1, no retired tile; 2, a translation; 3, permission. -/
def remoteFails (s : State) (l t : Nat) (kind : CopyKind) (c : CopyDesc) (n a : Nat) : Prop :=
  let x := s.launch l
  let p := s.tilePkg l t
  (∃ r k, r < c.rows ∧ k < c.bytes ∧ a = (c.remote.toNat + r * c.rpitch + k) % 2 ^ 64) ∧
    match n, regionOf x.desc.tmSize x.desc.ntile a with
    | 0, .glob => kind = .peer
    | 0, .devInfo _ => kind ≠ .get
    | 0, .l2p _ => kind ≠ .get
    | 0, .peer _ _ => kind ≠ .peer
    | 0, _ => True
    | 1, .peer u _ => (s.tile l u).retired = true
    | 2, .glob => s.xlate l p a = none
    | 3, .glob => ∃ g, s.xlate l p a = some g ∧ (pteSec g.pte = true ∨ s.physOk g x.dom = false ∨
        kind = .put ∧ (x.inCounters a = true ∨ pteW g.pte = false ∨ s.isRed l g a = true))
    | _, _ => False

/-- Step 5 of R234: 4, own TM; 5, a block that the copy may use. -/
def tmSideFails (s : State) (l t : Nat) (c : CopyDesc) (may : Nat → Owner → Prop) (n o : Nat) : Prop :=
  (∃ r k, r < c.rows ∧ k < c.bytes ∧ o = c.tm + r * c.tpitch + k) ∧
    (n = 4 ∧ (s.launch l).desc.tmSize ≤ o ∨ n = 5 ∧ o < (s.launch l).desc.tmSize ∧ ¬may (o / 2048) ((s.tile l t).owner o))

def copyCause : Nat → BitVec 8
  | 1 => 0x06
  | 2 => 0x05
  | 5 => 0x04
  | _ => 0x03

/-! ### Formats and matrix operands (R94, R98, R260–R265, R274) -/

/-- A valid format register (R94). -/
def fmtFits (r : BitVec 32) : Prop :=
  let n := r.toNat
  let w := n / 4 % 16
  let sg := n / 64 % 2
  let e := n / 128 % 8
  let bias : Int := (BitVec.ofNat 8 (n / 2 ^ 10)).toInt
  let spec := n / 2 ^ 18 % 4
  if n % 4 ≠ 0 then n / 4 = 0
  else 3 ≤ w ∧ w ≤ 8 ∧ e ≤ 6 ∧ sg + e ≤ w ∧ 1 ≤ w - sg ∧ spec ≠ 3 ∧ (spec = 2 → 2 ≤ e) ∧ (n / 2 ^ 20 % 2 = 1 → sg = 1) ∧ (n / 2 ^ 21 % 2 = 1 → spec = 2) ∧
    n / 2 ^ 22 = 0 ∧ (2 ^ e : Int) - 1 - bias ≤ 127 ∧ -149 ≤ 1 - bias - (w - sg - e)

/-- The bits of an element in storage (R98). -/
def widthOf (r : BitVec 32) : Nat :=
  match r.toNat % 4 with
  | 0 => if r.toNat / 4 % 16 ≤ 4 then 4 else 8
  | 1 => 32
  | _ => 16

/-- Fields of an operand's descriptor (R260). -/
def baseOf (w0 : Word) : Nat := w0.toNat % 2 ^ 21
def rpitchOf (w0 : Word) : Nat := w0.toNat / 2 ^ 32 % 2 ^ 16
def scaleMode (w1 : Word) : Nat := w1.toNat / 2 ^ 19 % 4

/-- The fields meet R260, for the A operand of MMAS, MST's destination or another operand. -/
def descFits (sparse dest : Bool) (w0 w1 : Word) (width : Nat) : Prop :=
  w0.toNat / 2 ^ 21 % 2 ^ 11 = 0 ∧ w0.toNat / 2 ^ 48 = 0 ∧ w1.toNat / 2 ^ 28 = 0 ∧ scaleMode w1 < 2 ∧ (w1.getLsbD 25 = false → w1.getLsbD 26 = false) ∧
    ¬(w1.getLsbD 24 = true ∧ scaleMode w1 = 1) ∧ ¬(w1.getLsbD 24 = true ∧ w1.getLsbD 25 = true) ∧ w1.getLsbD 25 = sparse ∧
    (width = 16 → baseOf w0 % 2 = 0 ∧ rpitchOf w0 % 2 = 0) ∧ (width = 32 → dest = true → baseOf w0 % 4 = 0 ∧ rpitchOf w0 % 4 = 0)

/-- Byte `o` lies in one of `n` rows of some bytes from start(i) on (R262). -/
def inRows (w0 w1 : Word) (n len o : Nat) : Prop :=
  ∃ i, i < n ∧ let a := baseOf w0 + i * rpitchOf w0 + 32 * (i * (w1.toNat / 2 ^ 21 % 8) % 8)
    a ≤ o ∧ o < a + len

/-- The bytes of an operand: K rows of 64 elements when transposed, else 64 rows, each with its scale bytes, of K elements or of the N values
that each group of 16 keeps, and then the metadata (R263–R265). -/
def operandByte (width : Nat) (w0 w1 : Word) (o : Nat) : Prop :=
  let k := if width = 16 then 32 else if width = 4 then 128 else 64
  let scales := if scaleMode w1 = 1 then k / 32 else 0
  let kept := if w1.getLsbD 26 then 8 else 4
  if w1.getLsbD 24 then inRows w0 w1 k (8 * width) o
  else if w1.getLsbD 25 then
    let meta0 := baseOf w0 + 64 * rpitchOf w0
    inRows w0 w1 64 (k * kept / 16 * width / 8 + scales) o ∨ meta0 ≤ o ∧ o < meta0 + 64 * (k * kept / 32)
  else inRows w0 w1 64 (k * width / 8 + scales) o

/-- The bytes that MST writes: 64 rows of 64 elements, with two scale bytes when scaled (R274). -/
def destByte (width : Nat) (w0 w1 : Word) (o : Nat) : Prop := inRows w0 w1 64 (8 * width + if scaleMode w1 = 1 then 2 else 0) o

/-- The range from the lowest to the highest of some bytes (R269). -/
def FootOf (P : Nat → Prop) (f : Range) : Prop := P f.lo ∧ P f.hi ∧ ∀ o, P o → f.lo ≤ o ∧ o ≤ f.hi

/-- What a request keeps of an operand: its words, its format, and its bytes as loads of the issuing task (R268). -/
def Holds (s : State) (a : DPair) (m : MOperand) : Prop :=
  m.word0 = a.w0 ∧ m.word1 = a.w1 ∧ m.fmt = a.fmt ∧ ∀ o, operandByte (widthOf a.fmt) a.w0 a.w1 o → Memory.get m.bytes o = s.ownByte s.curL s.curT s.curI o
end Sys2Proof.Claims

open Sys2Proof Sys2Proof.Machine Sys2Proof.Claims

/-! ### Encoding -/

/-- The encoder's word of every well-formed instruction decodes to that instruction, with every operand (R122–R133). An
unassigned word is its own step (R126) and is left out, since the decoder refuses it. -/
def Obligations.DecodeOfEncode : Prop :=
  ∀ (i : Instr) (w : IWord), i.wf = true → (∀ u, i ≠ .illegalInstruction u) → encode i = some w → decode w = .ok i

/-- A word that the decoder accepts is the encoding of a well-formed instruction, so no bit of it is dropped and no word is
two instructions (R122–R133). -/
def Obligations.EncodeOfDecode : Prop :=
  ∀ (w : IWord) (i : Instr), decode w = .ok i → i.wf = true ∧ encode i = some w

/-- Words written out bit by bit from the encoding tables: of the base forms R (MUL), I (ADDI), S (SD), B (BEQ), U (LUI) and J (JAL),
ECALL, EBREAK, FENCE.I, of S-space SYNC, STALL and REP, of the forms VM (VLDPI), VR (VFADD) and VI (VADDI), and of M-space MMA
(R123, R127–R133, R150, R173–R175, R180). -/
def Obligations.DecodesWrittenWords : Prop :=
  decode 0x00000073#32 = .ok .ecall ∧ decode 0x00100073#32 = .ok .ebreak ∧ decode 0x0000100F#32 = .ok .fenceI ∧
  decode 0x00C0600B#32 = .ok (.stall 12) ∧ decode 0b111111111111_00010_000_00001_0010011#32 = .ok (.addi 1 2 0xFFF) ∧
  decode 0b0000001_00011_00010_000_00001_0110011#32 = .ok (.mul 1 2 3) ∧
  decode 0b0000000_00000_00101_000_00100_0001011#32 = .ok (.sync 4 5) ∧
  decode 0b0001_11_0_00000_00010_111_00001_0001011#32 = .ok (.vldpi 1 2 3) ∧
  decode 0b000000_00_00011_00010_01_00001_1011011#32 = .ok (.vfadd .f32 1 2 3 1) ∧
  decode 0b0000001_00100_00010_000_00101_0101011#32 = .ok (.mma 5 2 4) ∧
  decode 0b1111111_00011_00010_011_10000_0100011#32 = .ok (.sd 3 2 0xFF0) ∧
  decode 0b1000001_00010_00001_000_00100_1100011#32 = .ok (.beq 1 2 0b1_0_000001_0010) ∧
  decode 0b00010010001101000101_00101_0110111#32 = .ok (.lui 5 0x12345) ∧
  decode 0b1_0000000101_1_00000011_00001_1101111#32 = .ok (.jal 1 0b1_00000011_1_0000000101) ∧
  decode 0b0011111110000000_01_01_00100_1111011#32 = .ok (.vaddi .bf16 4 0x3F80) ∧
  decode 0b000011_100_000_00000_101_00000_0001011#32 = .ok (.rep 3 4 0)

/-! ### Steps -/

/-- A step of a slot that can issue fetches at its pc and runs the decoded instruction; an undecodable word is the
illegal-instruction step; a fetch that fails is its trap, unless a comparator matches the address, which comes first; an
instruction whose line must cross the fabric on no path does not come and votes 0x42 (R126, R140, R300, R301, R338). A slot that
cannot issue takes no step. An event of the agenda happens. With nothing in the agenda, the slot that issues is the one the
model's order chooses (log entry 9), and the step is the same. That the comparator comes before the fetch's own trap at a misaligned pc too
is the model's choice (log entry 79). -/
def Obligations.StepRunsDecodedInstruction : Prop :=
  (∀ (s : State) (k : Slot) (rest : List Item), s.agenda = .issue k :: rest →
    let t : State := { s with agenda := rest, cur := k }
    (t.canIssue k = false → step s = .next t) ∧
    (t.canIssue k = true →
      (∀ (bs : List Byte), fetchAt t t.bank.pc = .ok bs →
        (∀ l p, t.fetchLost = some (l, p) → step s = .next (t.raiseB l p 0x42)) ∧
        (t.fetchLost = none → (∀ (i : Instr), decode (wordOfBytes bs) = .ok i → step s = exec i t) ∧
          ∀ (r : Reject), decode (wordOfBytes bs) = .error r → step s = exec (.illegalInstruction (wordOfBytes bs)) t)) ∧
      ∀ (c : BitVec 8) (v : Word), fetchAt t t.bank.pc = .error (c, v) →
        (t.cmpMatch none = none → step s = .next (takeTrap t c v none)) ∧
        ∀ n, t.cmpMatch none = some n → step s = .next (takeTrap t 0x08 0 (some n)))) ∧
  (∀ (s t : State) (bs : List Byte) (i : Instr), s.agenda = [] → nextSlot s = some t → t.canIssue t.cur = true →
    fetchAt t t.bank.pc = .ok bs → decode (wordOfBytes bs) = .ok i → t.fetchLost = none → step s = exec i t) ∧
  (∀ (s : State) (i : Instr) (rest : List Item), s.agenda = .event i :: rest → isEvent i = true → step s = exec i { s with agenda := rest })

/-- Every instruction word and every event that names objects of the part answers a next state, in every state: no ordinary
data ends a run. A term that names no object of the part is refused by its own fault (the model's choice, log entry 15). -/
def Obligations.EveryInstructionAnswers : Prop :=
  ∀ (i : Instr) (s : State), (i.wf = true ∨ isEvent i = false → Completes (exec i s)) ∧
    (isEvent i = true → i.wf = false → exec i s = .fault .noSuchObject)

/-! ### Reset and invariants -/

/-- What the secure world, reading window A, finds right after reset: every register to which the manual gives a reset value
(R331, R359, R372, R375), and 0 in every register of the four domain pages (R360, R386). That HBM reads 0 (log entry 1) and that
the PINS bits of PWRSTAT are 0 (log entry 51) are the model's choices.
The invariant of the handler queues holds at reset. -/
def Obligations.ResetState : Prop :=
  (∀ port stack : Nat, port < 28 → stack < 16 →
    (let w := fun off => (State.reset.windowA 0 off true).toNat
     w 0x000 = 0x0038343032_4B4C49 ∧ w 0x008 = 1 ∧ w 0x010 = 1 ∧ w 0x100 = 0 ∧ w 0x108 = 0 ∧ w 0x110 = 0 ∧ w 0x118 = 0 ∧ w 0x120 = 0 ∧
     w (0x1000 + 64 * stack) = 0 ∧ w (0x1008 + 64 * stack) = 4096 ∧ w (0x1010 + 64 * stack) = 2048 ∧
     w (0x100000 + 64 * port) = 0 ∧ w (0x100008 + 64 * port) = 0 ∧ w (0x100010 + 64 * port) = 2 ^ 64 - 1 ∧
     w (0x100018 + 64 * port) = 85899 + 16 * 2 ^ 32 ∧ w (0x100020 + 64 * port) = 0 ∧
     w 0x200000 = 0 ∧ w 0x200008 = 128 * 2 ^ 10 ∧ w 0x200018 = 16 * 2 ^ 30 ∧ w 0x200020 = 24 * 2 ^ 30 ∧ w 0x200028 = 0 ∧ w 0x200038 = 0) ∧
    (∀ d off, d < 4 → off < 0x10000 → State.reset.windowA 0 (0x10000 * (d + 1) + off) true = 0) ∧
    ∀ a, Memory.get (State.reset.pkg 0).hbm a = 0) ∧
  (HandlersBounded State.reset)

/-- No step ever leaves a handler slot with more than four waiting traps (R292), from any state that has none. -/
def Obligations.StepKeepsHandlersBounded : Prop :=
  ∀ s t : State, HandlersBounded s → step s = .next t → HandlersBounded t

/-! ### Integer computation and control transfer -/

/-- Every integer instruction but the divide forms writes its result to x[rd] and completes; a write to x0 is discarded, and
no other register, no memory and no CSR changes (R159, R161–R164, R90).
A divide form completes with its quotient or remainder on its way (R146, R163); when the divider is done, x[rd] holds
the value of R90, and no other x register has changed.
Jumps and taken branches to a target whose bit 1 is clear write the link and go on at the target; a branch not taken goes
on at pc + 4; a target with bit 1 set traps 0x02 with HTVAL the target, before any link write (R164, R165). -/
def Obligations.ScalarResults : Prop :=
  (∀ (s : State) (i : Instr) (d : Reg) (v : Word), s.readyFor i = true → intValue s.rx s.bank.pc i = some (d, v) →
    Effects i s (s.wx d v) ∧ (s.wx d v).rx d = (if d = 0 then 0 else v) ∧ (∀ r, r ≠ d → (s.wx d v).rx r = s.rx r) ∧ (d = 0 → (s.wx d v).bank = s.bank)) ∧
  (∀ (s : State) (i : Instr) (d : Reg) (v : Word), s.readyFor i = true → s.cur.wf = true → (s.task s.cur).pend = [] →
    divValue s.rx i = some (d, v) →
    ∃ t u, exec i s = .next t ∧ Retired s (if d = 0 then s else s.later { file := .x, num := d.toNat } (.divide (v.setWidth 2048))) t none ∧
      exec (.divideComplete s.cur) t = .next u ∧ u.rx d = (if d = 0 then 0 else v) ∧ (∀ r, r ≠ d → u.rx r = s.rx r) ∧ (u.task s.cur).pend = []) ∧
  (∀ (s : State) (i : Instr) (d : Option Reg) (a : Word) (taken : Bool), s.readyFor i = true → jumpOf s.rx s.bank.pc i = some (d, a, taken) →
    (taken = false → Effects i s s) ∧ (taken = true → a.getLsbD 1 = false → Jumps i s (linked s d) a) ∧
      (taken = true → a.getLsbD 1 = true → Traps i s 0x02 a))

/-- FENCE with any operands and FENCE.I have no effect but the pc's (R173).
STALL n completes and its slot then issues nothing until its count has expired; the expiry changes nothing else (R28,
R180).
A source read below its latency: in STALLCHK mode 1 the word traps 0x07 before any effect, HTVAL giving the distance, the latency,
the register and its file of the read that R157 names; in mode 2 it runs on the results; in mode 0 an integer word runs, each
source read wholly before or wholly after its producer, and no other register changes (R149, R157). Which of the two is a free value
(log entry 3). A STALL of n adds n to every distance, MUL starts one with latency 3 (R146, R147). -/
def Obligations.FencesAndStall : Prop :=
  (∀ (s : State) (fm pr su : BitVec 4), (s.readyFor (.fence fm pr su) = true → Effects (.fence fm pr su) s s) ∧
    (s.readyFor .fenceI = true → Effects .fenceI s s)) ∧
  (∀ (s : State) (n : BitVec 12), s.cur.wf = true → s.readyFor (.stall n) = true →
    ∃ t u, exec (.stall n) s = .next t ∧ Retired s (s.modTask s.cur fun k => { k with stall := some n }) t none ∧ t.canIssue s.cur = false ∧
      exec (.stallExpiry s.cur) t = .next u ∧ u.task s.cur = { t.task s.cur with stall := none } ∧
      (∀ k, k ≠ s.cur → u.task k = t.task k) ∧ { u with tasks := t.tasks } = t) ∧
  ((∀ (s : State) (i : Instr), issuesShort s i → s.bank.stallchk = 1 → ∀ h d, shortAt (s.task s.cur) i h d → h.lat < 65536 →
    (∀ g e, shortAt (s.task s.cur) i g e → (g, e) ≠ (h, d) → reportedBefore (h, d) (g, e)) →
    Traps i s 0x07 (BitVec.ofNat 64 (d + h.lat * 2 ^ 16 + h.reg.num * 2 ^ 32 + fileNo h.reg.file * 2 ^ 37))) ∧
  (∀ (s : State) (i : Instr) (d : Reg) (v : Word), issuesShort s i → intValue s.rx s.bank.pc i = some (d, v) →
    (s.bank.stallchk = 2 → Effects i s (s.wx d v)) ∧
    (s.bank.stallchk = 0 → ∃ (x : Reg → Word) (w : Word) (t : State),
      (∀ r, x r = s.rx r ∨ ∃ h e, shortAt (s.task s.cur) i h e ∧ h.reg = { file := .x, num := r.toNat } ∧ x r = h.old.setWidth 64) ∧
      intValue x s.bank.pc i = some (d, w) ∧ exec i s = .next t ∧ (∀ r, t.rx r = if r = d ∧ d ≠ 0 then w else s.rx r) ∧
      t.bank.pc = s.bank.pc + 4 ∧ t.bank.v = s.bank.v ∧ t.bank.p = s.bank.p ∧ (∀ k, k ≠ s.cur → t.task k = s.task k) ∧
      { t with tasks := s.tasks, free := s.free } = s)) ∧
  (∀ (s t : State) (d a b : Reg), d ≠ 0 → s.readyFor (.mul d a b) = true → exec (.mul d a b) s = .next t →
    { reg := { file := .x, num := d.toNat }, lat := 3, dist := 0, old := (s.rx d).zeroExtend 2048 } ∈ (t.task s.cur).haz) ∧
  ∀ (s t : State) (n : BitVec 12), s.readyFor (.stall n) = true → exec (.stall n) s = .next t →
    ∀ h ∈ (s.task s.cur).haz, h.dist + n.toNat + 1 < h.lat → { h with dist := h.dist + n.toNat } ∈ (t.task s.cur).haz)

/-! ### Traps -/

/-- ECALL raises 0x09 and EBREAK 0x08, each with HTVAL 0 and HPC at itself; a word that no encoding assigns raises 0x01 with HTVAL the word (R126,
R174, R175). Each is a next state in which a thread slot's task is frozen.
Words that the slot may not run raise 0x01 with HTVAL the word, by the tables of R125, R134 and R136 to R138: an accumulator the
task does not own, a CSR that is not listed or is read-only and would be written, a handler CSR or HRET in a thread slot, in a handler
slot every word but the base's, HRET and STALL, and every CSR but the handler's and CYCLE; and every word that breaks an operand rule of
R125 (R125, R126, R134, R136–R138). A word that breaks none is legal.
A comparator that watches the task's pc raises 0x08 at a word, HTVAL 0, before the word has any effect and before any trap of it but
0x01; the lowest-numbered is reported. None matches the first word after a return to HPC (R297, R300, R301). -/
def Obligations.TrapsOfInstructionWords : Prop :=
  (∀ (s : State) (w : IWord), (s.readyFor .ecall = true → Traps .ecall s 0x09 0) ∧ (s.readyFor .ebreak = true → Traps .ebreak s 0x08 0) ∧
    (s.canIssue s.cur = true → Traps (.illegalInstruction w) s 0x01 (w.zeroExtend 64)) ∧
    ∀ l t i, s.cur = .thread l t i → ∀ c v, (c, v) ∈ [(0x09#8, 0#64), (0x08, 0), (0x01, w.zeroExtend 64)] →
      ∃ r, ((takeTrap s c v none).task s.cur).status = .frozen r ∧ r.cause = c ∧ r.tval = v ∧ r.pc = s.bank.pc) ∧
  ((∀ (s : State) (i : Instr) (w : IWord), plainWord i ∨ (∃ n st c, i = .rep n st c) → s.canIssue s.cur = true → s.matWait i = false → encode i = some w →
    let bad := Traps i s 0x01 (w.zeroExtend 64)
    (i.wf = false → bad) ∧ (∀ m, accOf i = some m → s.accs ≤ m.toNat → bad) ∧
    (∀ c wr, csrNamed i = some (c, wr) →
      (s.inHandler = false → c ∉ csrRO ++ csrRW ∨ (wr = true ∧ c ∈ csrRO) → bad) ∧
      (s.inHandler = true → (c ∉ csrH ++ [0x7C7, 0xC8B]) ∨ (wr = true ∧ c ∈ [0x7C7, 0xC8B]) → bad)) ∧
    (∀ a, i = .hret a → s.inHandler = false → bad) ∧ (s.inHandler = true → ¬handlerMay w → bad)) ∧
  ∀ (i : Instr) (w : IWord) (inH : Bool) (accs : Nat), plainWord i → encode i = some w → i.wf = true → (∀ m, accOf i = some m → m.toNat < accs) →
    (∀ c wr, csrNamed i = some (c, wr) → if inH = true then c ∈ csrH ∨ (wr = false ∧ c ∈ [0x7C7, 0xC8B]) else c ∈ csrRW ∨ (wr = false ∧ c ∈ csrRO)) →
    ((∃ a, i = .hret a) → inH = true) → (inH = true → handlerMay w) → legal inH accs i = true) ∧
  ((∀ (s : State) (i : Instr) (n : BitVec 2), plainWord i → s.canIssue s.cur = true → s.matWait i = false → legal s.inHandler s.accs i = true →
    (s.task s.cur).rep = none → s.cmpMatch none = some n → exec i s = .next (takeTrap s 0x08 0 (some n))) ∧
  ∀ (s : State) (l t i : Nat), s.cur = .thread l t i → i < 4 →
    ((s.task s.cur).noCmp = true → s.cmpMatch none = none) ∧
    ((s.task s.cur).noCmp = false →
      (∀ n : BitVec 2, s.cmpMatch none = some n ↔ watches s n.toNat ∧ ∀ m, m < n.toNat → ¬watches s m) ∧
      (s.cmpMatch none = none ↔ ∀ m, m < 4 → ¬watches s m)))

/-- Taking a class A trap in a thread slot: the task freezes with HCAUSE, HPC, HTVAL and HSTATUS captured; its registers, its pc and
every other task, tile and package stay; REPSTATE takes the trapping repetition's count, and distances end. An access that the region table
refuses is logged besides, as event 8 of layer 3 with the tile and the physical address, in 8-byte fields by the model's choice (log entry 19)
(R147, R155, R160, R290, R294, R366). A stream skew with HTVAL other than 1 is not captured so (R320).
A trap of the handler slot escalates the trap that it serves, and the slot takes its next one at the handler image, or goes idle
(R293, R298). A stream skew with HTVAL other than 1 ends the launch with 0x85 at once, or restarts a REPLAY launch that R308 lets
restart; it is not captured (R289, R308, R320). A launch that has applied its commit on one package alone keeps the fault until the others
have applied it, and a restart waits for the frames of the old run (R349; the model's choice, log entry 69). -/
def Obligations.TrapFreezesTask : Prop :=
  (∀ (s : State) (l t i : Nat) (c : BitVec 8) (v : Word) (cmp : Option (BitVec 2)), s.cur = .thread l t i → ¬(c = 0x0B ∧ v ≠ 1) →
    let k := s.task s.cur
    let p := s.tilePkg l t
    let x := s.launch l
    let u := takeTrap s c v cmp
    (u.task s.cur).status = .frozen { cause := c, pc := k.bank.pc, tval := v, inrep := k.rep.isSome, cmp := cmp, alt := false,
                                      det := (s.launch l).desc.det, rerun := (s.lpkg l (s.tilePkg l t)).reexec != 0, serial := (s.launch l).serial, delivered := false } ∧
    (u.task s.cur).bank = (match k.rep with | some (rem, it) => { k.bank with repRemain := rem, repIter := it } | none => k.bank) ∧
    (u.task s.cur).kept = k.kept ∧ (u.task s.cur).pend = k.pend ∧ (u.task s.cur).mreq = k.mreq ∧ (u.task s.cur).haz = [] ∧
    (∀ j, j ≠ s.cur → u.task j = s.task j) ∧
    (c ≠ 0x03 ∨ isGlob v.toNat = false ∨ s.xlate l p v.toNat = none ∨ (∃ g, s.xlate l p v.toNat = some g ∧ s.physOk g x.dom = true) →
      { u with tasks := s.tasks } = s) ∧
    (c = 0x03 → isGlob v.toNat = true → ∀ g, s.xlate l p v.toNat = some g → s.physOk g x.dom = false →
      { u with tasks := s.tasks } = s.logEvent p x.dom 8 3 x.id (natLe 8 (s.tile l t).phys ++ natLe 8 (g.ppn * 65536 + v.toNat % 65536)))) ∧
  ((∀ (s : State) (p h : Nat) (k : Slot) (alt : Bool) (r : TrapRec) (c : BitVec 8) (v : Word), s.cur = .handler p h →
    (s.handler p h).serving = some (k, alt) → k ≠ s.cur → (s.task k).status = .frozen r →
    let u := takeTrap s c v none
    u.task k = { s.task k with status := .escalated r } ∧ (∀ j, j ≠ k → j ≠ s.cur → u.task j = s.task j) ∧ u.launches = s.launches ∧ u.tiles = s.tiles ∧
      (match (s.handler p h).queue with
       | [] => u.handler p h = { serving := none, queue := [] } ∧ (u.task s.cur).status = .retired
       | (j, a) :: q => u.handler p h = { serving := some (j, a), queue := q } ∧ (u.task s.cur).status = .running ∧ (∀ x, u.rx x = 0) ∧
           ∀ l t i, j = .thread l t i → u.bank.pc = ((s.pkg p).dom (s.launch l).dom).cfg.handlerVa)) ∧
  ∀ (s : State) (l t i : Nat) (v : Word), s.cur = .thread l t i → v ≠ 1 →
    let x := s.launch l
    let u := takeTrap s 0x0B v none
    (x.split = true → x.fault = none → (u.launch l).fault = some 0x85 ∧ (u.launch l).lp = x.lp ∧ u.tiles = s.tiles ∧ u.tasks = s.tasks) ∧
    (x.split = false → x.desc.replay = false → x.holdTiles = false → noneFlips s l →
      Tab.find u.launches l = none ∧ ((u.pkg x.pkg).dom x.dom).done.head? = some (x.id, 0x85)) ∧
    (x.split = false → x.desc.replay = true → x.restarts < x.desc.limit → x.trigs = [] → x.outward = false → framesIn s l →
      (u.launch l).fault = some 0x85 ∧ (u.launch l).restarts = x.restarts ∧ ∀ q ∈ x.pkgs, (u.lpkg l q).phase ∈ [Phase.ended, .queued]) ∧
    (x.split = false → x.desc.replay = true → x.restarts < x.desc.limit → x.trigs = [] → x.outward = false → ¬framesIn s l →
      (u.launch l).restarts = x.restarts + 1 ∧ (∀ q ∈ x.pkgs, (u.lpkg l q).phase = .stage ∧ (u.lpkg l q).sstep = 0) ∧
        ∀ n j, n < x.desc.ntile → j < x.desc.tasks → u.task (.thread l n j) = startTask x.desc))

/-! ### Waiting and control registers -/

/-- The CSR instructions: rd gets the old value, and the CSR the new one unless the form only reads; TFLAGS, and a write of
TRAPEN, wait for the task's SFU and matrix requests (R138, R177, R178). A read of CYCLE advances the model's own counter (log entry 4).
What a write of a CSR leaves to read, field by field, in a thread slot and in a handler slot; no other CSR of the slot
changes (R99, R139, R178, R179, R277, R294, R300). That HPC is the pc of the frozen task's bank is the model's reading (log entry 13). -/
def Obligations.ControlRegisters : Prop :=
  (∀ (s : State) (i : Instr) (d : Reg) (c : Nat) (f : Word → Option Word), s.readyFor i = true → csrOf s.rx i = some (d, c, f) →
    (s.csrBusy c (f (s.csrRead c)).isSome = false → Effects i s (let u := (csrWritten s c (f (s.csrRead c))).wx d (s.csrRead c); if c = 0xC8B then u.tick else u)) ∧
    (s.csrBusy c (f (s.csrRead c)).isSome = true → exec i s = .next s.notReady)) ∧
  ((∀ (s : State) (l t i c : Nat) (v : Word), s.cur = .thread l t i → csrWritable c = true → csrHandler c = false →
    (s.csrWrite c v).csrRead c = csrField (s.launch l).desc.floor (s.launch l).desc.mbSize (s.csrRead c) v c ∧
    ∀ e, e ≠ c → (s.csrWrite c v).csrRead e = s.csrRead e) ∧
  (∀ (s : State) (p h : Nat) (k : Slot) (r : TrapRec) (v : Word), s.cur = .handler p h → s.served = some (k, r) →
    (s.csrWrite 0x7C3 v).csrRead 0x7C3 = v ∧ ((s.csrWrite 0x7C3 v).task k).bank.pc = v ∧
    (s.csrWrite 0x7C6 v).csrRead 0x7C6 = v &&& 0x3FFF3FFF3FFF3FFF ∧
    ∀ c ∈ [0x7C0, 0x7C1, 0x7C2, 0x7C4, 0x7C5], s.csrWrite c v = s))

/-! ### Scalar loads and stores -/

/-- An aligned load whose bytes are all in own TM, in a block no engine holds: x[rd] gets the bytes as the task's own deltas or
the committed TM have them, extended (R55, R167, R168). Nothing else changes.
A load from elsewhere completes with its result on the way; when it has been served, x[rd] holds the bytes as they stood then,
and no other x register has changed (R74, R146, R167, R168). -/
def Obligations.ScalarLoads : Prop :=
  (∀ (s : State) (l t i : Nat) (j : Instr) (d a : Reg) (m : BitVec 12) (n : Nat) (sg : Bool), s.cur = .thread l t i → s.readyFor j = true →
    loadOf j = some (d, a, m, n, sg) →
    let e := (s.rx a + m.signExtend 64).toNat
    e % n = 0 → e + n ≤ (s.launch l).desc.tmSize → ((s.tile l t).owner e).isEngine = false → noStoreRange (s.task s.cur) e n →
    Effects j s (s.wx d (loaded n sg fun k => s.ownByte l t i (e + k)))) ∧
  (∀ (s : State) (l t i : Nat) (j : Instr) (d a : Reg) (m : BitVec 12) (n : Nat) (sg : Bool), s.cur = .thread l t i → i < 4 →
    s.readyFor j = true → (s.task s.cur).pend = [] → loadOf j = some (d, a, m, n, sg) →
    let e := (s.rx a + m.signExtend 64).toNat
    e % n = 0 → readableAt s l t e →
    let lost := ∃ k, k < n ∧ s.lostRead l (s.tilePkg l t) (e + k) = true
    (lost → ∃ u src, exec j s = .next u ∧ Retired s ((s.later { file := .x, num := d.toNat } src).raiseB l (s.tilePkg l t) 0x42) u none ∧
      0x42 ∈ (u.lpkg l (s.tilePkg l t)).causes) ∧
    (¬lost → d = 0 → Effects j s s) ∧ (¬lost → d ≠ 0 →
      ∃ u q, exec j s = .next u ∧ (∃ src, Retired s (s.later { file := .x, num := d.toNat } src) u none) ∧ (∀ r, u.rx r = s.rx r) ∧
        exec (.accessResult s.cur 0) u = .next q ∧ q.rx d = loaded n sg (fun k => u.loadByte l t i (e + k)) ∧
        (∀ r, r ≠ d → q.rx r = s.rx r) ∧ (q.task s.cur).pend = []))

/-- What a scalar access that may not be performed traps with, HTVAL its effective address: a misaligned one, one to no region or to one
that does not take it, a retired tile's, an untranslated page's, a SEC page's or one that the region table refuses, a store to a read-only,
reduction or counter page, and one to a block the task does not own (R46, R48, R50, R63, R167, R168, R366). -/
def Obligations.ScalarAccessTraps : Prop :=
  ∀ (s : State) (j : Instr) (a : Reg) (m : BitVec 12) (n : Nat) (st : Bool), s.readyFor j = true →
    ((∃ d sg, st = false ∧ loadOf j = some (d, a, m, n, sg)) ∨ (∃ v, st = true ∧ storeOf j = some (v, a, m, n))) →
    let w := s.rx a + m.signExtend 64
    let e := w.toNat
    (e % n ≠ 0 → Traps j s 0x02 w) ∧
    ∀ l t i, e % n = 0 → s.cur = .thread l t i →
      match regionOf (s.launch l).desc.tmSize (s.launch l).desc.ntile e with
      | .none => Traps j s 0x03 w
      | .handlerWin => Traps j s 0x03 w
      | .devInfo _ => st = true → Traps j s 0x03 w
      | .l2p _ => st = true → Traps j s 0x03 w
      | .peer u _ => (s.tile l u).retired = true → Traps j s 0x06 w
      | .glob => (s.xlate l (s.tilePkg l t) e = none → Traps j s 0x05 w) ∧
          ∀ g, s.xlate l (s.tilePkg l t) e = some g →
            (pteSec g.pte = true ∨ s.physOk g (s.launch l).dom = false → Traps j s 0x03 w) ∧
            (st = true → pteW g.pte = false ∨ s.isRed l g e = true ∨ (∃ k, k < n ∧ (s.launch l).inCounters (e + k) = true) → Traps j s 0x03 w)
      | .own off => (if st then (s.tile l t).owner off ≠ .own i else ((s.tile l t).owner off).isEngine = true) → Traps j s 0x04 w

/-- An aligned store to the task's own block of own TM: the task's own loads see the stored bytes and every other byte as before;
committed TM and HBM stay until the commit; the delta is queued with the task's key, the tile's pool past its size raises 0x43, and the
sequence advances (R52, R54, R55, R167, R169, R170).
A store to another tile of the same package, or to a writable page homed there that has its shadow page: one effect with the
task's key is queued, and the target's pool past its size raises 0x43; committed TM and HBM stay until the commit (R52, R54, R64, R169, R170).
A store to a tile of another package sends one packet to it, on a path that the line's address selects, or votes 0x42 when no path is
left; a store to a page homed on another package is held here as one packet, on no path yet, until CLOSING. The effect has the task's key and
nothing is written here (R52, R64, R169, R336, R340). The first store to a page homed
here gives the launch a shadow page, a copy of the page, or votes 0x44 when the pool is empty (R64). -/
def Obligations.ScalarStores : Prop :=
  (∀ (s : State) (l t i : Nat) (j : Instr) (v a : Reg) (m : BitVec 12) (n : Nat), s.cur = .thread l t i → s.readyFor j = true →
    storeOf j = some (v, a, m, n) →
    let e := (s.rx a + m.signExtend 64).toNat
    e % n = 0 → e + n ≤ (s.launch l).desc.tmSize → (s.tile l t).owner e = .own i → noStoreRange (s.task s.cur) e n → noFetchRange (s.task s.cur) e n →
    ∃ u, exec j s = .next u ∧ Retired s (s.queue (.tmWrite t true e (natLe n (s.rx v).toNat))).advSeq u none ∧
      (u.launch l).pends = (s.launch l).pends ++ [keyed s (.tmWrite t true e (natLe n (s.rx v).toNat))] ∧ PoolChecked s u l t ∧
      (∀ k, k < n → u.ownByte l t i (e + k) = byteOf (s.rx v) k) ∧ (∀ o, o < e ∨ e + n ≤ o → u.ownByte l t i o = s.ownByte l t i o) ∧
      (∀ l' t' o, u.tmByte l' t' o = s.tmByte l' t' o) ∧ u.pkgs = s.pkgs ∧ u.bank.seq = s.bank.seq + 1 ∧ u.bank.x = s.bank.x) ∧
  (∀ (s : State) (l t i : Nat) (j : Instr) (v a : Reg) (m : BitVec 12) (n : Nat) (f : Effect), s.cur = .thread l t i → s.readyFor j = true →
    storeOf j = some (v, a, m, n) →
    let e := (s.rx a + m.signExtend 64).toNat
    let bs := natLe n (s.rx v).toNat
    e % n = 0 →
    ((∃ x o, regionOf (s.launch l).desc.tmSize (s.launch l).desc.ntile e = .peer x o ∧ (s.tile l x).retired = false ∧
        s.tilePkg l x = s.tilePkg l t ∧ f = .tmWrite x false o bs) ∨
      (∃ g, isGlob e = true ∧ s.xlate l (s.tilePkg l t) e = some g ∧ g.home = s.tilePkg l t ∧ pteSec g.pte = false ∧ pteW g.pte = true ∧
        s.physOk g (s.launch l).dom = true ∧ s.isRed l g e = false ∧ (s.launch l).inCounters e = false ∧ (s.launch l).inCounters (e + n - 1) = false ∧
        ((s.launch l).shadows.any fun h => h.home == g.home && h.vpn == e / 65536) = true ∧ f = .gWrite (BitVec.ofNat 64 e) bs)) →
    ∃ u, exec j s = .next u ∧ Retired s (s.queue f).advSeq u none ∧
      (u.launch l).pends = (s.launch l).pends ++ [{ tile := t, task := i, seq := s.bank.seq, eff := f }] ∧
      (∀ x o, f = .tmWrite x false o bs → PoolChecked s u l x) ∧ (∀ l' t' o, u.tmByte l' t' o = s.tmByte l' t' o) ∧ u.pkgs = s.pkgs ∧ u.bank.seq = s.bank.seq + 1) ∧
  (∀ (s : State) (l t i : Nat) (j : Instr) (v a : Reg) (m : BitVec 12) (n : Nat), s.cur = .thread l t i → s.readyFor j = true →
    storeOf j = some (v, a, m, n) →
    let e := (s.rx a + m.signExtend 64).toNat
    let p := s.tilePkg l t
    let bs := natLe n (s.rx v).toNat
    let x := s.launch l
    let writable := fun g : Page => isGlob e = true ∧ s.xlate l p e = some g ∧ pteSec g.pte = false ∧ pteW g.pte = true ∧ s.physOk g x.dom = true ∧
      s.isRed l g e = false ∧ x.inCounters e = false ∧ x.inCounters (e + n - 1) = false
    e % n = 0 →
    (∀ g, writable g → g.home ≠ p →
      let ra := (g.ppn * 65536 + e % 65536) / 64 * 64 % 2 ^ 64
      let q : Packet := { src := p, dst := g.home, ra := ra, path := 0, launch := l, pends := [keyed s (.gWrite (BitVec.ofNat 64 e) bs)], gfaa := none, st := .held }
      Effects j s ({ s with fabric := s.fabric ++ [q] } : State).advSeq) ∧
    (∀ y o, regionOf x.desc.tmSize x.desc.ntile e = .peer y o → (s.tile l y).retired = false →
      let f : Effect := .tmWrite y false o bs
      let dst := s.tilePkg l y
      let ra := BitVec.ofNat 64 (e / 64 * 64)
      dst ≠ p →
      (∀ w, s.route p dst ra = some w → ∃ u, exec j s = .next u ∧
        Retired s ({ s with fabric := s.fabric ++ [{ src := p, dst := dst, ra := ra.toNat, path := w, launch := l, pends := [keyed s f], gfaa := none, st := .inFlight }] } : State).advSeq u none ∧
        u.bank.seq = s.bank.seq + 1) ∧
      (s.route p dst ra = none → ∃ u, exec j s = .next u ∧ Retired s (s.raiseB l p 0x42).advSeq u none ∧ 0x42 ∈ (u.lpkg l p).causes)) ∧
    (∀ g, writable g → g.home = p → (∀ h ∈ x.shadows, ¬(h.home = p ∧ h.vpn = e / 65536)) →
      (∀ k q, ((s.pkg p).pool x.dom).take l (s.sstepOf l) = some (k, q) → ∃ u, exec j s = .next u ∧
        (u.launch l).shadows = x.shadows ++ [{ home := p, vpn := e / 65536, ppn := k, old := g.ppn }] ∧ (u.launch l).pends = x.pends ++ [keyed s (.gWrite (BitVec.ofNat 64 e) bs)] ∧
        (u.pkg p).pool x.dom = q ∧ (∀ d, d % 4 ≠ x.dom % 4 → (u.pkg p).pool d = (s.pkg p).pool d) ∧ (∀ o, o < 65536 → Memory.get (u.pkg p).hbm (k * 65536 + o) = Memory.get (s.pkg p).hbm (g.ppn * 65536 + o)) ∧
        (∀ o, o < k * 65536 ∨ k * 65536 + 65536 ≤ o → Memory.get (u.pkg p).hbm o = Memory.get (s.pkg p).hbm o) ∧ (∀ z, z ≠ p → u.pkg z = s.pkg z) ∧
        u.bank.seq = s.bank.seq + 1 ∧ u.bank.x = s.bank.x ∧ (∀ k, k ≠ s.cur → u.task k = s.task k) ∧ u.tiles = s.tiles) ∧
      (((s.pkg p).pool x.dom).take l (s.sstepOf l) = none → ∃ u, exec j s = .next u ∧ 0x44 ∈ (u.lpkg l p).causes ∧ u.pkgs = s.pkgs ∧ u.tiles = s.tiles)))

/-! ### The handler window -/

/-- A handler slot's aligned accesses to its window read and write the served task's banks and the tile's comparators; one to a v register
that a pending SFU request of the task will write waits; another window address traps 0x03 (R172, R255, R295, R296).
The window's addresses, and what its bank shows: x, v and p registers and the pc at the offsets of R295; a written dword reads
back (but the read-only parts and fields with a write rule), and no other dword changes (R295, R296).
A handler slot's global accesses are the trapped task's: a load reads what its launch sees, a store is a delta with that task's key and
advances that task's sequence; own TM, peers and device pages trap 0x03, an untranslated page 0x05 (R172). -/
def Obligations.HandlerWindow : Prop :=
  (∀ (s : State) (j : Instr) (a : Reg) (m : BitVec 12) (n : Nat), s.inHandler = true → s.readyFor j = true →
    let w := s.rx a + m.signExtend 64
    let e := w.toNat
    e % n = 0 → 0xFFFFF00000000000 ≤ e →
    (∀ d sg, loadOf j = some (d, a, m, n, sg) →
      (s.winPlace e = none → Traps j s 0x03 w) ∧ (∀ x, s.winPlace e = some x → s.winBusy x = true → exec j s = .next s.notReady) ∧
      ∀ x, s.winPlace e = some x → s.winBusy x = false → Effects j s (s.wx d (loaded n sg fun k => byteOf (s.winDword x) (e % 8 + k)))) ∧
    (∀ v, storeOf j = some (v, a, m, n) →
      (s.winPlace e = none → Traps j s 0x03 w) ∧ (∀ x, s.winPlace e = some x → s.winBusy x = true → exec j s = .next s.notReady) ∧
      ∀ x, s.winPlace e = some x → s.winBusy x = false → Effects j s (s.winSetDword x (patch (s.winDword x) (e % 8) n (s.rx v))))) ∧
  ((∀ (s : State) (l t i : Nat) (r : TrapRec) (off : Nat), s.served = some (.thread l t i, r) → i < 4 →
    let base := 0xFFFFF00000000000 + (s.tile l t).phys * 2 ^ 20
    (off < 0x2400 → s.winPlace (base + i * 2 ^ 16 + off) = some (.bank off)) ∧ (off < 0x40 → s.winPlace (base + 8 * 2 ^ 16 + off) = some (.tileArea off)) ∧
    (∀ o, s.winBusy (.tileArea o) = false ∧ (s.winBusy (.bank o) = true ↔
      ∃ q ∈ (s.tile l t).sfu, q.task = i ∧ 0x100 + 256 * q.vd.toNat ≤ o ∧ o < 0x200 + 256 * q.vd.toNat)) ∧
    (0x2400 ≤ off → off < 2 ^ 16 → s.winPlace (base + i * 2 ^ 16 + off) = none) ∧ (off < 2 ^ 16 → ∀ k, k < 16 → k ≠ i → k ≠ 8 → s.winPlace (base + k * 2 ^ 16 + off) = none)) ∧
  (∀ (b : Bank) (key : Word), b.dword key 0x2200 = b.pc ∧ (∀ r : Reg, b.dword key (8 * r.toNat) = b.rx r) ∧
    (∀ (r : Reg) (j : Nat), j < 32 → b.dword key (0x100 + 256 * r.toNat + 8 * j) = (b.rv r).extractLsb' (64 * j) 64) ∧
    (∀ (r : PReg) (j : Nat), j < 4 → b.dword key (0x2100 + 32 * r.toNat + 8 * j) = (b.rp r).extractLsb' (64 * j) 64)) ∧
  (∀ (b : Bank) (key d : Word) (fl o q : Nat), o % 8 = 0 → q % 8 = 0 →
    ((0 < o ∧ o < 0x2100) ∨ (0x2120 ≤ o ∧ o ≤ 0x2200) → (b.setDword fl false o d).dword key o = d) ∧
    (q ≠ o → (b.setDword fl false o d).dword key q = b.dword key q))) ∧
  (∀ (s : State) (p h l t i : Nat) (r : TrapRec) (j : Instr) (a : Reg) (m : BitVec 12) (n : Nat), s.cur = .handler p h →
    s.served = some (.thread l t i, r) → s.tilePkg l t = p → s.readyFor j = true →
    let w := s.rx a + m.signExtend 64
    let e := w.toNat
    let k := Slot.thread l t i
    e % n = 0 → e < 0xFFFFF00000000000 →
    (∀ d sg, loadOf j = some (d, a, m, n, sg) →
      (isGlob e = false → Traps j s 0x03 w) ∧ (isGlob e = true → s.xlate l p e = none → Traps j s 0x05 w) ∧
      ∀ g, isGlob e = true → s.xlate l p e = some g → (pteSec g.pte = true ∨ s.physOk g (s.launch l).dom = false → Traps j s 0x03 w) ∧
        (pteSec g.pte = false → s.physOk g (s.launch l).dom = true → s.lostRead l p e = false →
          Effects j s (s.wx d (loaded n sg fun o => s.globByte l p (e + o))))) ∧
    (∀ v, storeOf j = some (v, a, m, n) →
      (isGlob e = false → Traps j s 0x03 w) ∧ (isGlob e = true → s.xlate l p e = none → Traps j s 0x05 w) ∧
      ∀ g, isGlob e = true → s.xlate l p e = some g →
        (pteSec g.pte = true ∨ s.physOk g (s.launch l).dom = false ∨ pteW g.pte = false ∨ s.isRed l g e = true ∨ (s.launch l).inCounters e = true → Traps j s 0x03 w) ∧
        (pteSec g.pte = false → s.physOk g (s.launch l).dom = true → pteW g.pte = true → s.isRed l g e = false → (s.launch l).inCounters e = false →
          g.home = p → ((s.launch l).shadows.any fun h => h.home == p && h.vpn == e / 65536) = true →
          ∃ u, exec j s = .next u ∧
            (u.launch l).pends = (s.launch l).pends ++ [{ tile := t, task := i, seq := (s.task k).bank.seq, eff := .gWrite (BitVec.ofNat 64 e) (natLe n (s.rx v).toNat) }] ∧
            u.task k = { s.task k with bank := { (s.task k).bank with seq := (s.task k).bank.seq + 1 } } ∧ u.pkgs = s.pkgs ∧ u.tiles = s.tiles ∧
            ∀ o, u.rx o = s.rx o)))


/-! ### Ending and shaping supersteps -/

/-- SYNC and EXIT end the task's part of the superstep: it issues no more; at the commit of superstep k a task at SYNC runs on with rd
holding k and its bank retained, and a task at EXIT retires, its last bank retained too (R8, R26, R227, R228). A flag value of 8 or more traps
0x0C. When the last task of a package's last wave ends its part, the package leaves COMPUTE for CLOSING, and what it has held is sent, each
packet on the path that its address selects (R23, R64, R75, R340). -/
def Obligations.SyncAndExitEndTheTask : Prop :=
  ∀ (s : State) (d a : Reg), (s.readyFor (.sync d a) = true →
    (8 ≤ (s.rx a).toNat → Traps (.sync d a) s 0x0C (s.rx a)) ∧
    ((s.rx a).toNat < 8 → ∃ t, exec (.sync d a) s = .next t ∧ Retired s (s.atBarrier (.atSync d ((s.rx a).setWidth 3))) t none ∧
      (t.task s.cur).status = .atSync d ((s.rx a).setWidth 3) ∧ t.canIssue s.cur = false ∧ (∀ r, t.rx r = s.rx r) ∧
      ∀ k, let u := (t.task s.cur).commit k
        u.status = .running ∧ u.kept = u.bank ∧ u.bank.rx d = (if d = 0 then 0 else BitVec.ofNat 64 (k % 2 ^ 32)) ∧ (∀ r, r ≠ d → u.bank.rx r = s.rx r))) ∧
  (s.readyFor .exit = true → ∃ t, exec .exit s = .next t ∧ Retired s (s.atBarrier .atExit) t none ∧ (t.task s.cur).status = .atExit ∧
    t.canIssue s.cur = false ∧ ∀ k, let u := (t.task s.cur).commit k
      u.status = .retired ∧ u.kept = u.bank ∧ ∀ r, u.bank.rx r = s.rx r) ∧
  ∀ (l n i : Nat) (j : Instr), s.cur = .thread l n i → s.readyFor j = true → (j = .exit ∨ j = .sync d a ∧ (s.rx a).toNat < 8) →
    let p := s.tilePkg l n
    s.waves l ≤ (s.lpkg l p).wave + 1 → s.savingOn l p = false →
    (∀ e ∈ s.tasks, ∀ m k, e.1 = .thread l m k → e.1 ≠ s.cur → s.tilePkg l m = p → (s.tile l m).wave = (s.lpkg l p).wave → e.2.status.atBarrier = true) →
    let mine := fun q : Packet => q.launch = l ∧ q.src = p ∧ q.st = .held
    ∃ t, exec j s = .next t ∧ (t.lpkg l p).phase = .closing ∧ (∀ q ∈ t.fabric, ¬mine q) ∧ (∀ q ∈ s.fabric, ¬mine q → q ∈ t.fabric) ∧
      ∀ q ∈ s.fabric, mine q →
        (∀ w, s.route p q.dst (BitVec.ofNat 64 q.ra) = some w → { q with ra := q.ra % 2 ^ 64, path := w, st := .inFlight } ∈ t.fabric) ∧
        (s.route p q.dst (BitVec.ofNat 64 q.ra) = none → 0x42 ∈ (t.lpkg l p).causes)

/-- TRIG and ABORTREQ: the trigger is queued with the task's key; the abort cause 0x46 is raised on the task's package with the
lowest-keyed requester's value, and the package's tasks issue no more (R25, R229, R230).
LAUNCH of a 64-byte-aligned descriptor with translations reserves an entry of the queue of the descriptor's priority and queues the
enqueueing; it waits while that queue is full; the traps of the other cases, of a descriptor whose first page alone has a translation too
(R31, R231). -/
def Obligations.TrigAbortreqAndLaunch : Prop :=
  (∀ (s : State) (a : Reg), (s.readyFor .trig = true → Effects .trig s (s.queue .trig).advSeq ∧
    ((s.queue .trig).advSeq.launch s.curL).pends = (s.launch s.curL).pends ++ [keyed s .trig]) ∧
  (s.readyFor (.abortreq a) = true → ∃ t r, exec (.abortreq a) s = .next t ∧
    Retired s ((s.modLpkg s.curL s.curP fun x => { x with req := some r }).raiseB s.curL s.curP 0x46) t none ∧
    (t.lpkg s.curL s.curP).causes = [0x46] ∧ t.canIssue s.cur = false ∧
    (let mine := (s.curT, s.curI, s.bank.seq, (s.rx a).setWidth 32)
     match (s.lpkg s.curL s.curP).req with
     | none => r = mine
     | some q => r = mine ∧ Pend.lt (keyed s .trig) { tile := q.1, task := q.2.1, seq := q.2.2.1, eff := .trig } = true ∨
         r = q ∧ Pend.lt (keyed s .trig) { tile := q.1, task := q.2.1, seq := q.2.2.1, eff := .trig } = false))) ∧
  (∀ (s : State) (a : Reg), s.readyFor (.launch a) = true →
    let v := s.rx a
    let p := s.curP
    let d := s.curLaunch.dom
    let q := (s.globByte s.curL p (v.toNat + 5)).toNat % 8
    (v.toNat % 64 ≠ 0 → Traps (.launch a) s 0x02 v) ∧
    (v.toNat % 64 = 0 → isGlob v.toNat = false → Traps (.launch a) s 0x03 v) ∧
    (v.toNat % 64 = 0 → isGlob v.toNat = true → ∀ k, k < 256 → (∀ m, m < k → isGlob (v.toNat + m) = true ∧ s.xlate s.curL p (v.toNat + m) ≠ none) →
      isGlob (v.toNat + k) = false ∨ s.xlate s.curL p (v.toNat + k) = none → Traps (.launch a) s 0x05 (v + BitVec.ofNat 64 k)) ∧
    (v.toNat % 64 = 0 → (∀ k, k < 256 → isGlob (v.toNat + k) = true ∧ s.xlate s.curL p (v.toNat + k) ≠ none) →
      let x := ((s.pkg p).dom d).queue q
      (64 ≤ x.entries.length + x.reserved → exec (.launch a) s = .next s.notReady) ∧
      (x.entries.length + x.reserved < 64 →
        ∃ t, exec (.launch a) s = .next t ∧ Retired s ((s.modQueue p d q fun x => { x with reserved := x.reserved + 1 }).queue (.launch v q)).advSeq t none ∧
          ((t.pkg p).dom d).queue q = { x with reserved := x.reserved + 1 } ∧
          (t.launch s.curL).pends = (s.launch s.curL).pends ++ [keyed s (.launch v q)])))

/-- HRET ends the handler's run and acts on the trapped task: 0 resumes it at HPC, 1 past the trapping word or repetition, 2 kills it
and drops what it queued, 3 aborts the superstep with 0x49, 4 escalates; another value escalates as a descriptor fault. The slot then
takes its next trap at the handler image, or goes idle. Where the handler has written another HPC, action 1 resumes past the word there and
leaves REPSTATE (R155, R232, R293, R297). -/
def Obligations.HretActs : Prop :=
  ∀ (s : State) (p h l t i : Nat) (r : TrapRec) (a : Reg), s.cur = .handler p h → s.served = some (.thread l t i, r) → s.readyFor (.hret a) = true →
    ∃ u, exec (.hret a) s = .next u ∧
      (let k := s.task (.thread l t i)
       let w := u.task (.thread l t i)
       match (s.rx a).toNat with
       | 0 => w = { k with status := .running, noCmp := true }
       | 1 => (r.inrep = false → w = { k with status := .running, noCmp := false, bank := { k.bank with pc := k.bank.pc + 4 } }) ∧
           (r.inrep = true → k.bank.pc = r.pc → 1 < k.bank.repRemain.toNat →
             w = { k with status := .running, noCmp := false, bank := { k.bank with repRemain := k.bank.repRemain - 1, repIter := k.bank.repIter + 1 } }) ∧
           (r.inrep = true → k.bank.pc = r.pc → k.bank.repRemain.toNat ≤ 1 →
             w = { k with status := .running, noCmp := false, bank := { k.bank with repRemain := 0, repIter := 0, pc := k.bank.pc + 8 } }) ∧
           (r.inrep = true → k.bank.pc ≠ r.pc → w = { k with status := .running, noCmp := false, bank := { k.bank with pc := k.bank.pc + 4 } })
       | 2 => w.status = .killed ∧ w.mreq = [] ∧ w.pend = [] ∧ (∀ e ∈ (u.launch l).pends, ¬(e.tile = t ∧ e.task = i)) ∧
           (∀ c ∈ (u.tile l t).copies, c.task ≠ i) ∧ (∀ q ∈ (u.tile l t).sfu, q.task ≠ i)
       | 3 => w = k ∧ (openOn s l (s.tilePkg l t) → 0x49 ∈ (u.lpkg l (s.tilePkg l t)).causes)
       | _ => w = { k with status := .escalated r }) ∧
      (match (s.handler p h).queue with
       | [] => u.handler p h = { serving := none, queue := [] } ∧ (u.task s.cur).status = .retired
       | (k, alt) :: q => u.handler p h = { serving := some (k, alt), queue := q } ∧ (u.task s.cur).status = .running ∧ (∀ x, u.rx x = 0) ∧
           ∀ l' t' i', k = .thread l' t' i' → (s.task s.cur).rep = none → u.bank.pc = ((s.pkg p).dom (s.launch l').dom).cfg.handlerVa)

/-! ### Copies, fetch lists, ownership -/

/-- CPGET, CPPUT and CPPEER check the descriptor's place and its fields, wait while 256 copies of the tile are in flight, and check every byte of
the remote side and of the TM side in the order of R234: the first check that a byte fails traps with the lowest byte that fails it. A copy
that passes is in flight: x[rd] gets the tag, the source sequence advances, its line requests cover the remote bytes in order, each block
of the task that it touches is the engine's, and a CPPUT has a shadow page of each page homed here, or votes 0x44 (R46, R48, R51, R61, R63,
R64, R168, R233–R235, R366). That a CPPUT takes those pages when it issues is the model's choice (log entry 31, from R58, by which the copy
counts from its issue): R64 says when the write is made, which is when the copy completes. -/
def Obligations.CopiesStart : Prop :=
  ∀ (s : State) (l t i : Nat) (j : Instr) (kind : CopyKind) (d a : Reg), s.cur = .thread l t i → s.readyFor j = true → copyOf j = some (kind, d, a) →
    let v := s.rx a
    let x := s.launch l
    let f := fun k => s.ownByte l t i (v.toNat + k)
    let c := copyAt f
    let bad := fun n a => remoteFails s l t kind c n a ∨ tmSideFails s l t c (fun _ o => o = .own i ∨ o = .engine i ∨ kind = .put ∧ o = .ro) n a
    let at_ := fun r b => (c.remote.toNat + r * c.rpitch + b) % 2 ^ 64
    x.desc.ctrCount = 0 ∨ x.desc.ctrVa.toNat % 65536 = 0 →
    (v.toNat % 32 ≠ 0 → Traps j s 0x02 v) ∧
    (v.toNat % 32 = 0 → x.desc.tmSize < v.toNat + 32 → Traps j s 0x03 v) ∧
    (v.toNat % 32 = 0 → v.toNat + 32 ≤ x.desc.tmSize → engineAt s l t v.toNat → Traps j s 0x04 v) ∧
    (v.toNat % 32 = 0 → v.toNat + 32 ≤ x.desc.tmSize → ¬engineAt s l t v.toNat → (s.task s.cur).mreq = [] →
      (¬copyFits f (kind = .get) → Traps j s 0x0C v) ∧
      (copyFits f (kind = .get) → 256 ≤ (s.tile l t).copies.length → exec j s = .next s.notReady) ∧
      (copyFits f (kind = .get) → (s.tile l t).copies.length < 256 →
        (∀ n a, FirstFails bad n a → Traps j s (copyCause n) (BitVec.ofNat 64 a)) ∧
        ((∀ n a, ¬bad n a) →
          ∃ u ring, exec j s = .next u ∧ Retired s (s.startCopy d kind c) u none ∧ u.rx d = (if d = 0 then 0 else s.bank.seq) ∧ u.bank.seq = s.bank.seq + 1 ∧
            (u.tile l t).copies = (s.tile l t).copies ++ [{ task := i, tag := s.bank.seq, kind := kind, desc := c, ring := ring }] ∧
            (ring.flatMap fun q => (List.range q.2).map (q.1 + ·)) = (List.range c.rows).flatMap (fun r => (List.range c.bytes).map (at_ r)) ∧
            (∀ q ∈ ring, 1 ≤ q.2 ∧ q.1 / 64 = (q.1 + q.2 - 1) / 64) ∧
            (∀ b o, (s.tile l t).ownCur[b]? = some o → (o = .own i ∧ CopyOn c b → (u.tile l t).ownCur[b]? = some (.engine i)) ∧
              (¬(o = .own i ∧ CopyOn c b) → (u.tile l t).ownCur[b]? = some o)) ∧
            (kind ≠ .put → u.launches = s.launches ∧ u.pkgs = s.pkgs) ∧
            (kind = .put → ∀ r b g, r < c.rows → b < c.bytes → s.xlate l (s.tilePkg l t) (at_ r b) = some g → g.home = s.tilePkg l t →
              (∃ h ∈ (u.launch l).shadows, h.home = g.home ∧ h.vpn = at_ r b / 65536) ∨ 0x44 ∈ (u.lpkg l g.home).causes))))

/-- COPY_COMPLETE of a copy whose line requests are served: nothing happens while an earlier copy of the task shares a block with it. A CPGET or
CPPEER writes its rows, transposed as its layout says, as deltas with the copy's key, and the task's own loads see of overlapping rows the
last one; the tile's pool past its size raises 0x43. A CPPUT's bytes, read as the task's loads, row after row, are shadow writes with the
copy's key where the page is homed here, and packets of one line each where it is homed elsewhere, held until CLOSING, or sent in it. The
copy is gone, and its blocks that no other copy of the task touches are the task's again; committed TM stays (R51, R52, R55, R57, R59, R61, R64, R65, R233,
R235, R236, R336, R340). Two things are the model's choices: that a CPPUT's bytes are read when it completes (log entry 31; R235 has them as
a load of the task at issue), and that a run over several lines is a packet a line, a path for each being sought in CLOSING (log entry 29).
CPWAIT waits, and CPTEST answers 0, while a copy of the task with a tag up to x[rs1] is in flight; then they complete, CPTEST with 1
(R237). In a CCE round a tile whose ring is not empty may serve as many bytes as its deficit and 256 times its weight allow, in the order of the
ring; what it did not use is its deficit while requests are left, the head larger than it, and none is kept when the ring is empty. A
line that must cross the fabric on no path votes 0x42 (R42, R338). -/
def Obligations.CopiesCompleteAndWait : Prop :=
  (∀ (s : State) (l t : Nat) (c : Copy) (pre post : List Copy), c.task < 4 → (s.tile l t).copies = pre ++ c :: post → c.ring = [] →
    (∀ d ∈ pre ++ c :: post, 1 ≤ d.desc.bytes) → (∀ d ∈ pre ++ post, ¬(d.task = c.task ∧ d.tag = c.tag)) →
    let p := s.tilePkg l t
    let x := s.launch l
    let k := c.desc
    let at_ := fun r b => (k.remote.toNat + r * k.rpitch + b) % 2 ^ 64
    let has := fun r o => k.tm + r * k.tpitch ≤ o ∧ o < k.tm + r * k.tpitch + k.bytes
    let blocked := ∃ d ∈ pre, d.task = c.task ∧ ∃ b, CopyOn d.desc b ∧ CopyOn k b
    (blocked → exec (.copyComplete l t c.task c.tag) s = .next s) ∧
    (¬blocked → ∃ u, exec (.copyComplete l t c.task c.tag) s = .next u ∧ (u.tile l t).copies = pre ++ post ∧ u.tasks = s.tasks ∧
      (∀ b o, (s.tile l t).ownCur[b]? = some o → (o = .engine c.task ∧ CopyOn k b ∧ (∀ d ∈ pre ++ post, d.task = c.task → ¬CopyOn d.desc b) →
          (u.tile l t).ownCur[b]? = some (.own c.task)) ∧
        (¬(o = .engine c.task ∧ CopyOn k b ∧ ∀ d ∈ pre ++ post, d.task = c.task → ¬CopyOn d.desc b) → (u.tile l t).ownCur[b]? = some o)) ∧
      (∀ t' o, u.tmByte l t' o = s.tmByte l t' o) ∧ (∀ q, q ≠ (l, t) → u.tile q.1 q.2 = s.tile q.1 q.2) ∧
      (c.kind ≠ .put → u.fabric = s.fabric ∧
        (u.launch l).pends = x.pends ++ (List.range k.rows).map (fun r =>
          { tile := t, task := c.task, seq := c.tag, eff := .tmWrite t true (k.tm + r * k.tpitch) ((List.range k.bytes).map (copyByte s l p c.kind k r)) }) ∧
        (∀ r b, r < k.rows → b < k.bytes → (∀ q, r < q → q < k.rows → ¬has q (k.tm + r * k.tpitch + b)) →
          u.ownByte l t c.task (k.tm + r * k.tpitch + b) = copyByte s l p c.kind k r b) ∧
        (∀ o, (∀ r, r < k.rows → ¬has r o) → u.ownByte l t c.task o = s.ownByte l t c.task o) ∧
        ((s.lpkg l p).phase = .compute → u.pkgs = s.pkgs) ∧ (k.rows ≠ 0 → PoolChecked s u l t)) ∧
      (c.kind = .put →
        let page := fun va => s.xlate l p va
        let here := fun va => (page va).any fun g => g.home == p
        let closing := (s.lpkg l p).phase = .closing
        let line := fun (g : Page) va => (g.ppn * 65536 + va % 65536) / 64 * 64 % 2 ^ 64
        (∀ r b, r < k.rows → b < k.bytes → isGlob (at_ r b) = true ∧ ∃ g, page (at_ r b) = some g ∧
          (g.home = p → ∃ h ∈ x.shadows, h.home = p ∧ h.vpn = at_ r b / 65536) ∧
          (g.home ≠ p → closing → s.route p g.home (BitVec.ofNat 64 (line g (at_ r b))) ≠ none)) →
        let bytes := (List.range k.rows).flatMap fun r => (List.range k.bytes).map fun b => (at_ r b, s.ownByte l t c.task (k.tm + r * k.tpitch + b))
        let keyed' := fun e : Pend => e.tile = t ∧ e.task = c.task ∧ e.seq = c.tag
        u.pkgs = s.pkgs ∧ ∃ es qs, (u.launch l).pends = x.pends ++ es ∧ (∀ e ∈ es, keyed' e) ∧ gBytes es = bytes.filter (fun e => here e.1) ∧
          u.fabric = s.fabric ++ qs ∧ gBytes (qs.flatMap (·.pends)) = bytes.filter (fun e => !here e.1) ∧
          ∀ q ∈ qs, ∃ e w bs g, q.pends = [e] ∧ keyed' e ∧ e.eff = .gWrite w bs ∧ bs ≠ [] ∧ w.toNat / 64 = (w.toNat + bs.length - 1) / 64 ∧
            page w.toNat = some g ∧ q.src = p ∧ q.dst = g.home ∧ q.ra = line g w.toNat ∧ q.launch = l ∧ q.gfaa = none ∧
            (closing → q.st = .inFlight ∧ s.route p g.home (BitVec.ofNat 64 q.ra) = some q.path) ∧ (¬closing → q.st = .held ∧ q.path = 0)))) ∧
  ((∀ (s : State) (d a : Reg),
    (s.readyFor (.cpwait a) = true → (copyOpen s (s.rx a) → exec (.cpwait a) s = .next s.notReady) ∧ (¬copyOpen s (s.rx a) → Effects (.cpwait a) s s)) ∧
    (s.readyFor (.cptest d a) = true →
      (copyOpen s (s.rx a) → Effects (.cptest d a) s (s.wx d 0)) ∧ (¬copyOpen s (s.rx a) → Effects (.cptest d a) s (s.wx d 1)))) ∧
  (∀ (s : State) (p d c : Nat), p < 192 → d < 8 → c < 16 → ∃ u, exec (.cceRound p d c) s = .next u ∧
    let here := fun k : Tile => k.phys / 16 = p % 256 * 128 + d * 16 + c
    let ring := fun k : Tile => k.copies.flatMap (·.ring)
    let size := fun rs : List (Nat × Nat) => rs.foldl (fun n r => n + r.2) 0
    u.tasks = s.tasks ∧
    ((∀ e ∈ s.tiles, here e.2 → ∀ a ∈ e.2.servedLines, s.lostRead e.1.1 p a = false) → { u with tiles := s.tiles } = s) ∧
    (∀ e ∈ s.tiles, here e.2 → (∃ a ∈ e.2.servedLines, s.lostRead e.1.1 p a = true) → openOn s e.1.1 p → 0x42 ∈ (u.lpkg e.1.1 p).causes) ∧
    ∀ l t, (∀ k, Tab.find s.tiles (l, t) = some k → here k → ∃ k' done, Tab.find u.tiles (l, t) = some k' ∧
        { k' with copies := k.copies, deficit := k.deficit } = k ∧ k'.copies.map (fun c => { c with ring := [] }) = k.copies.map (fun c => { c with ring := [] }) ∧
        ring k = done ++ ring k' ∧ (ring k = [] → k' = k) ∧
        (ring k ≠ [] → size done ≤ k.deficit + 256 * k.weight ∧ (ring k' = [] → k'.deficit = 0) ∧
          ∀ r rest, ring k' = r :: rest → k'.deficit + size done = k.deficit + 256 * k.weight ∧ k'.deficit < r.2)) ∧
      (∀ k, Tab.find s.tiles (l, t) = some k → ¬here k → Tab.find u.tiles (l, t) = some k)))

/-- GIVE queues a transfer of one of the task's own blocks. FLIST makes the checks of R238 in its order, the entries' in list order, and hands a
list that passes them to the stager for the next superstep, its target blocks with it; a block that the task has given away in the
superstep is no target (R50, R51, R61, R168, R233, R234, R238, R241, R242, R287). That an entry may ask for transposition, of which R61 speaks
for CPGET alone, is the model's reading (log entry 27), and that step 8 is made entry by entry, so that the first entry in the list's order
that fails it names the cause, is its choice (log entry 91). -/
def Obligations.FlistAndGive : Prop :=
  ∀ (s : State) (l t i : Nat) (a b : Reg), s.cur = .thread l t i →
    (s.readyFor (.give a b) = true →
      ((s.launch l).desc.tmSize ≤ (s.rx a).toNat → Traps (.give a b) s 0x03 (s.rx a)) ∧
      ((s.rx a).toNat < (s.launch l).desc.tmSize → ((s.launch l).desc.tasks ≤ (s.rx b).toNat ∨ (s.tile l t).owner (s.rx a).toNat ≠ .own i) →
        Traps (.give a b) s 0x04 (s.rx a)) ∧
      ((s.rx a).toNat < (s.launch l).desc.tmSize → (s.rx b).toNat < (s.launch l).desc.tasks → (s.tile l t).owner (s.rx a).toNat = .own i →
        Effects (.give a b) s (s.queue (.give ((s.rx a).toNat / 2048) (s.rx b).toNat)).advSeq)) ∧
    (s.readyFor (.flist a) = true → (s.task s.cur).mreq = [] → (s.launch l).desc.ctrCount = 0 ∨ (s.launch l).desc.ctrVa.toNat % 65536 = 0 →
      let o := (s.rx a).toNat
      let size := (s.launch l).desc.tmSize
      let n := leBytes 4 fun k => s.ownByte l t i (o + k)
      let at_ := fun e => o + 32 + 32 * e
      let f := fun e k => s.ownByte l t i (at_ e + k)
      let ds := (List.range n).map fun e => copyAt (f e)
      let given := fun b => ∃ g ∈ (s.launch l).pends, g.tile = t ∧ g.task = i ∧ ∃ d, g.eff = .give b d
      let remote := fun e => remoteFails s l t .get (copyAt (f e))
      let target := fun e => tmSideFails s l t (copyAt (f e)) fun b w => (w = .own i ∨ w = .engine i) ∧ ¬given b
      let fits := ∀ e, e < n → copyFits (f e) True
      let traps := fun c k => Traps (.flist a) s c (BitVec.ofNat 64 k)
      (o % 32 ≠ 0 → traps 0x02 o) ∧ (o % 32 = 0 → size < o + 32 → traps 0x03 o) ∧ (o % 32 = 0 → o + 32 ≤ size → 1024 < n → traps 0x0C o) ∧
      (o % 32 = 0 → o + 32 ≤ size → n ≤ 1024 → size < o + 32 + 32 * n → traps 0x03 size) ∧
      (o % 32 = 0 → n ≤ 1024 → o + 32 + 32 * n ≤ size →
        (∀ k, o ≤ k → k < o + 32 + 32 * n → engineAt s l t k → (∀ k', o ≤ k' → k' < k → ¬engineAt s l t k') → traps 0x04 k) ∧
        ((∀ k, o ≤ k → k < o + 32 + 32 * n → ¬engineAt s l t k) →
          (∀ e, e < n → ¬copyFits (f e) True → (∀ e', e' < e → copyFits (f e') True) → traps 0x0C (at_ e)) ∧
          (∀ e c k, fits → e < n → FirstFails (remote e) c k → (∀ e' c k, e' < e → ¬remote e' c k) → traps (copyCause c) k) ∧
          (∀ e c k, fits → (∀ e c k, e < n → ¬remote e c k) → e < n → FirstFails (target e) c k → (∀ e' c k, e' < e → ¬target e' c k) → traps (copyCause c) k) ∧
          (fits → (∀ e c k, e < n → ¬remote e c k ∧ ¬target e c k) →
            ∃ u, exec (.flist a) s = .next u ∧ { u with tasks := s.tasks, tiles := s.tiles, launches := s.launches } = s ∧ (∀ r, u.rx r = s.rx r) ∧
              (u.launch l).fetchNext = (s.launch l).fetchNext ++ (if n = 0 then [] else [{ tile := t, task := i, entries := ds }]) ∧
              ∀ b w, (s.tile l t).ownCur[b]? = some w → ((∃ d ∈ ds, CopyOn d b) → (u.tile l t).ownCur[b]? = some (.fetch i)) ∧
                ((∀ d ∈ ds, ¬CopyOn d b) → (u.tile l t).ownCur[b]? = some w)))))

/-! ### Remote atomics, messages, reductions -/

/-- The remote atomics queue one commit-time effect on own or peer TM with the task's key, and trap elsewhere; at commit the integer ones
replace the word by the value of R243 and leave every other byte (R52, R57, R243).
At the commit, deltas to a tile apply in ascending key order, so that each byte ends as the highest-keyed delta to it wrote it; RFADDS
replaces the word by the FP32 sum rounded to nearest even and raises its flags in CFLAGS; a message is appended to the mailbox ring as
its 16-byte header, its payload and padding, or dropped and counted in MBLOST when it does not fit (R54, R57, R83, R243).
SEND of a legal payload queues one message for a tile, or one for every member of a group that is not retired, with the task's key; the
traps of the other operands (R244, R245). -/
def Obligations.AtomicsAndMessages : Prop :=
  ((∀ (s : State) (l t i : Nat) (j : Instr) (op : AOp) (v a : Reg), s.cur = .thread l t i → s.readyFor j = true → atomicOf j = some (op, v, a) →
    let w := s.rx a
    let n := if op = .addw ∨ op = .fadds then 4 else 8
    (w.toNat % n ≠ 0 → Traps j s 0x02 w) ∧
    (w.toNat % n = 0 → match regionOf (s.launch l).desc.tmSize (s.launch l).desc.ntile w.toNat with
      | .own off => ∃ u, exec j s = .next u ∧ Retired s (s.queue (.atomic t op off (s.rx v))).advSeq u none ∧
          (u.launch l).pends = (s.launch l).pends ++ [keyed s (.atomic t op off (s.rx v))]
      | .peer x off => ((s.tile l x).retired = true → Traps j s 0x06 w) ∧
          ((s.tile l x).retired = false → Effects j s (s.queueTo x (BitVec.ofNat 64 (w.toNat / 64 * 64)) (.atomic x op off (s.rx v))).advSeq ∧
            (s.tilePkg l x = s.tilePkg l t → ((s.queueTo x (BitVec.ofNat 64 (w.toNat / 64 * 64)) (.atomic x op off (s.rx v))).launch l).pends =
              (s.launch l).pends ++ [keyed s (.atomic x op off (s.rx v))]))
      | _ => Traps j s 0x03 w)) ∧
  (∀ (x : Tile) (d : Desc) (t : Nat) (p : Pend) (op : AOp) (a : Nat) (v r : Word), p.eff = .atomic t op a v →
    atomicValue op (BitVec.ofNat 64 (x.tm.nat a op.size)) v = some r →
    let y := (x.applyEff d t p).1
    y.tm.nat a op.size = r.toNat ∧ (∀ o, o < a ∨ a + op.size ≤ o → Memory.get y.tm o = Memory.get x.tm o) ∧ y.cflags = x.cflags)) ∧
  ((∀ (x : Tile) (d : Desc) (t : Nat) (ps : List Pend), (∀ p ∈ ps, ∃ u own a bs, p.eff = .tmWrite u own a bs) →
    let covers := fun (p : Pend) (o : Nat) => ∃ own a bs, p.eff = .tmWrite t own a bs ∧ a ≤ o ∧ o < a + bs.length
    ∀ o, ((∀ p ∈ ps, ¬covers p o) → Memory.get (x.applyAll d t ps).tm o = Memory.get x.tm o) ∧
      ∀ q ∈ ps, (∀ p ∈ ps, covers p o → p = q ∨ Pend.lt p q = true) → ∀ own a bs, q.eff = .tmWrite t own a bs → a ≤ o → o < a + bs.length →
        Memory.get (x.applyAll d t ps).tm o = bs.getD (o - a) 0) ∧
  (∀ (x : Tile) (d : Desc) (t : Nat) (p : Pend) (a : Nat) (v : Word), p.eff = .atomic t .fadds a v →
    let r := fvRound fp32 .rne 0 (fvAdd .rne (fd fp32 (x.tm.nat a 4)) (fd fp32 (v.toNat % 2 ^ 32)))
    let y := (x.applyEff d t p).1
    y.tm.nat a 4 = r.1 % 2 ^ 32 ∧ y.cflags = x.cflags ||| r.2.zeroExtend 6 ∧ ∀ o, o < a ∨ a + 4 ≤ o → Memory.get y.tm o = Memory.get x.tm o) ∧
  (∀ (x : Tile) (d : Desc) (t : Nat) (p : Pend) (m : List Byte), p.eff = .msg t m → m.length ≤ 4096 →
    let n := 16 + (m.length + 15) / 16 * 16
    let count := (x.mbTail + d.mbSize - x.mbHead) % d.mbSize
    let y := (x.applyEff d t p).1
    let bs := natLe 4 p.tile ++ natLe 1 p.task ++ [0] ++ natLe 2 m.length ++ natLe 4 (p.seq.toNat % 2 ^ 32) ++ [0, 0, 0, 0] ++ m
    (d.mbSize = 0 ∨ d.mbSize - 16 - count < n → y = { x with mbLost := min (x.mbLost + 1) (2 ^ 32 - 1) }) ∧
    (n ≤ d.mbSize - 16 - count → x.mbTail < d.mbSize → y.mbTail = (x.mbTail + n) % d.mbSize ∧ y.mbHead = x.mbHead ∧ y.mbLost = x.mbLost ∧
      (∀ j, j < n → Memory.get y.tm (d.mbBase + (x.mbTail + j) % d.mbSize) = bs.getD j 0) ∧
      ∀ o, (∀ j, j < n → o ≠ d.mbBase + (x.mbTail + j) % d.mbSize) → Memory.get y.tm o = Memory.get x.tm o))) ∧
  (∀ (s : State) (l t i : Nat) (a b : Reg), s.cur = .thread l t i → s.readyFor (.send a b) = true →
    let v := s.rx a
    let w := s.rx b
    let g := w.toNat % 2 ^ 32
    let n := w.toNat / 2 ^ 32 % 2 ^ 16
    let x := s.launch l
    let ok := n ≤ 4096 ∧ w.toNat / 2 ^ 48 % 2 ^ 15 = 0
    (¬ok → Traps (.send a b) s 0x0C w) ∧ (ok → x.desc.mbSize = 0 → Traps (.send a b) s 0x03 w) ∧
    (ok → x.desc.mbSize ≠ 0 → n ≠ 0 → v.toNat % 16 ≠ 0 → Traps (.send a b) s 0x02 v) ∧
    let bad := readFails s l t fun o => v.toNat ≤ o ∧ o < v.toNat + n
    (ok → x.desc.mbSize ≠ 0 → (n ≠ 0 → v.toNat % 16 = 0) → ∀ c o, FirstFails bad c o → Traps (.send a b) s (readCause c) (BitVec.ofNat 64 o)) ∧
    (ok → x.desc.mbSize ≠ 0 → (n ≠ 0 → v.toNat % 16 = 0) → (∀ c o, ¬bad c o) →
      (s.task s.cur).mreq = [] →
      (w.getLsbD 63 = false → (x.desc.ntile ≤ g → Traps (.send a b) s 0x03 w) ∧ (g < x.desc.ntile → (s.tile l g).retired = true → Traps (.send a b) s 0x06 w)) ∧
      (w.getLsbD 63 = true → x.desc.ngroups ≤ g → Traps (.send a b) s 0x0C w) ∧
      ∀ ts, (w.getLsbD 63 = false ∧ g < x.desc.ntile ∧ (s.tile l g).retired = false ∧ ts = [g]) ∨
          (w.getLsbD 63 = true ∧ g < x.desc.ngroups ∧ ts = (x.groups.getD g []).filter fun t => !(s.tile l t).retired) →
        let bs := (List.range n).map fun k => s.ownByte l t i (v.toNat + k)
        Effects (.send a b) s (s.sendTo ts bs).advSeq ∧
        ((∀ u ∈ ts, s.tilePkg l u = s.tilePkg l t) → ((s.sendTo ts bs).launch l).pends = x.pends ++ ts.map fun u => keyed s (.msg u bs))))

/-- REDADD contributes to a word of a reduction page homed here that has its shadow page, and sends its contribution to another home; GFAA
adds to a counter homed here at once and x[rd] gets the old value, and sends a request to a counter's other home, or votes 0x42 on no path; the traps of the other operands (R48, R63,
R64, R80, R81, R246, R247, R336, R340, R366). The address by which a GFAA request is routed (log entry 66) and that a GFAA whose counter page has no valid entry raises 0x03 (log entry
87) are the model's choices. -/
def Obligations.RedaddAndGfaa : Prop :=
  (∀ (s : State) (l t i : Nat) (v a : Reg), s.cur = .thread l t i → s.readyFor (.redadd v a) = true →
    let w := s.rx a
    let e := w.toNat
    (e % 8 ≠ 0 → Traps (.redadd v a) s 0x02 w) ∧ (e % 8 = 0 → isGlob e = false → Traps (.redadd v a) s 0x03 w) ∧
    (e % 8 = 0 → isGlob e = true → s.xlate l (s.tilePkg l t) e = none → Traps (.redadd v a) s 0x05 w) ∧
    ∀ g, e % 8 = 0 → isGlob e = true → s.xlate l (s.tilePkg l t) e = some g →
      (s.isRed l g e = false ∨ pteSec g.pte = true ∨ s.physOk g (s.launch l).dom = false ∨ (s.launch l).inCounters e = true → Traps (.redadd v a) s 0x03 w) ∧
      (s.isRed l g e = true → pteSec g.pte = false → s.physOk g (s.launch l).dom = true → (s.launch l).inCounters e = false → g.home ≠ s.tilePkg l t →
        let c := redContrib ((s.rx v).toNat % 2 ^ 32) (s.redScale l g e)
        Effects (.redadd v a) s (s.send l g.home (BitVec.ofNat 64 ((g.ppn * 65536 + e % 65536) / 64 * 64)) (s.tilePkg l t)
          [keyed s (.redAdd w (c.getD 0) c.isSome)]).advSeq) ∧
      (s.isRed l g e = true → pteSec g.pte = false → s.physOk g (s.launch l).dom = true → (s.launch l).inCounters e = false → g.home = s.tilePkg l t →
        ((s.launch l).shadows.any fun h => h.home == g.home && h.vpn == e / 65536) = true →
        let c := redContrib ((s.rx v).toNat % 2 ^ 32) (s.redScale l g e)
        ∃ u, exec (.redadd v a) s = .next u ∧ Retired s (s.queue (.redAdd w (c.getD 0) c.isSome)).advSeq u none ∧
          (u.launch l).pends = (s.launch l).pends ++ [keyed s (.redAdd w (c.getD 0) c.isSome)])) ∧
  (∀ (s : State) (l t i : Nat) (d v a : Reg), s.cur = .thread l t i → s.readyFor (.gfaa d v a) = true →
    let w := s.rx a
    let e := w.toNat
    (e % 8 ≠ 0 → Traps (.gfaa d v a) s 0x02 w) ∧ (e % 8 = 0 → (s.launch l).inCounters e = false → Traps (.gfaa d v a) s 0x03 w) ∧
    (e % 8 = 0 → (s.launch l).inCounters e = true → (s.launch l).desc.det = true → Traps (.gfaa d v a) s 0x0E w) ∧
    (e % 8 = 0 → (s.launch l).inCounters e = true → (s.launch l).desc.det = false → s.xlate l (s.tilePkg l t) e = none → Traps (.gfaa d v a) s 0x03 w) ∧
    ∀ g, e % 8 = 0 → (s.launch l).inCounters e = true → (s.launch l).desc.det = false → s.xlate l (s.tilePkg l t) e = some g →
      (pteSec g.pte = true ∨ s.physOk g (s.launch l).dom = false → Traps (.gfaa d v a) s 0x03 w) ∧
      (pteSec g.pte = false → s.physOk g (s.launch l).dom = true →
        let o := g.ppn * 65536 + e % 65536
        let old := (s.pkg g.home).hbm.nat o 8
        let req : GfaaReq := { slot := s.cur, id := s.free, addr := o, add := s.rx v }
        (g.home = s.tilePkg l t → ∃ u, exec (.gfaa d v a) s = .next u ∧
          (quiet s g.home g.ppn → (u.pkg g.home).hbm.nat o 8 = (old + (s.rx v).toNat) % 2 ^ 64 ∧
            ∀ b, b < o ∨ o + 8 ≤ b → Memory.get (u.pkg g.home).hbm b = Memory.get (s.pkg g.home).hbm b) ∧
          (∀ b, b ≠ g.home → u.pkg b = s.pkg b) ∧
          ((s.task s.cur).pend = [] → i < 4 → d ≠ 0 → ∃ q, exec (.accessResult s.cur 0) u = .next q ∧ q.rx d = BitVec.ofNat 64 old ∧ ∀ r, r ≠ d → q.rx r = s.rx r)) ∧
        (g.home ≠ s.tilePkg l t →
          (∀ p, s.route (s.tilePkg l t) g.home w = some p → ∃ u, exec (.gfaa d v a) s = .next u ∧ u.pkgs = s.pkgs ∧
            u.fabric = s.fabric ++ [{ src := s.tilePkg l t, dst := g.home, ra := e, path := p, launch := l, pends := [], gfaa := some req, st := .inFlight }] ∧
            (d ≠ 0 → (u.task s.cur).pend = (s.task s.cur).pend ++ [{ dst := { file := .x, num := d.toNat }, src := .gfaa s.free }])) ∧
          (s.route (s.tilePkg l t) g.home w = none → ∃ u, exec (.gfaa d v a) s = .next u ∧ 0x42 ∈ (u.lpkg l (s.tilePkg l t)).causes))))

/-- A member tile's GRED queues its contribution (FP32 ones its low word), and GRES returns the group's result of the last commit, or the
operation's identity; a group the tile is no member of traps 0x0C (R115, R248, R249).
BST queues a write of a Broadcast Table entry, at most 64 a tile and superstep, on the package that sends them; BLD reads the entry as it
stood at the reader's last commit; an index of 512 or more traps 0x03 (R75, R76, R250, R251). The HTVAL of the 65th BST's trap (log entry 28)
and the address 0 by which a forwarded BST is routed (log entry 29) are the model's choices.
The tag table: TLOOK finds a tag's value or answers all ones; TINS keeps a known tag's place, puts a new one last, and drops the first of a
full partition; TDEL and TCLR remove; a TINS value with bit 63 set traps 0x0C (R252, R253). -/
def Obligations.GroupsBroadcastAndTags : Prop :=
  (∀ (s : State) (l t i : Nat), s.cur = .thread l t i →
    let mem := fun g : Word => g.toNat < (s.launch l).desc.ngroups ∧ t ∈ (s.launch l).groups.getD g.toNat []
    (∀ (j : Instr) (op : GOp) (a b : Reg), s.readyFor j = true → gredOf j = some (op, a, b) →
      let v := if op = .fadds ∨ op = .fmins ∨ op = .fmaxs then s.rx a &&& 0xFFFFFFFF else s.rx a
      (¬mem (s.rx b) → Traps j s 0x0C (s.rx b)) ∧
      (mem (s.rx b) → ∃ u, exec j s = .next u ∧ Retired s (s.queue (.gred (s.rx b).toNat op v)) u none ∧
        (u.launch l).pends = (s.launch l).pends ++ [keyed s (.gred (s.rx b).toNat op v)])) ∧
    (∀ (j : Instr) (op : GOp) (d a : Reg) (z : Word), s.readyFor j = true → gresOf j = some (op, d, a, z) →
      (¬mem (s.rx a) → Traps j s 0x0C (s.rx a)) ∧
      (mem (s.rx a) → ((∀ e ∈ (s.tile l t).gres, e.1 ≠ ((s.rx a).toNat, op.code)) → Effects j s (s.wx d z)) ∧
        ∀ pre post v, (s.tile l t).gres = pre ++ (((s.rx a).toNat, op.code), v) :: post → (∀ e ∈ pre, e.1 ≠ ((s.rx a).toNat, op.code)) →
          Effects j s (s.wx d v)))) ∧
  (∀ (s : State) (l t i : Nat) (a b d : Reg), s.cur = .thread l t i →
    (s.readyFor (.bst a b) = true →
      (512 ≤ (s.rx a).toNat → Traps (.bst a b) s 0x03 (s.rx a)) ∧
      ((s.rx a).toNat < 512 → 64 ≤ s.bstCount l t → Traps (.bst a b) s 0x0C (s.rx a)) ∧
      ((s.rx a).toNat < 512 → s.bstCount l t < 64 →
        let w := keyed s (.bst (s.rx a).toNat (s.rx b))
        let home := (s.launch l).pkgs.headD (s.tilePkg l t)
        (home = s.tilePkg l t → Effects (.bst a b) s (s.addPend l w).advSeq ∧ ((s.addPend l w).advSeq.launch l).pends = (s.launch l).pends ++ [w]) ∧
        (home ≠ s.tilePkg l t → Effects (.bst a b) s ({ s with fabric := s.fabric ++
          [{ src := s.tilePkg l t, dst := home, ra := 0, path := 0, launch := l, pends := [w], gfaa := none, st := .held }] } : State).advSeq))) ∧
    (s.readyFor (.bld d a) = true →
      (512 ≤ (s.rx a).toNat → Traps (.bld d a) s 0x03 (s.rx a)) ∧
      ((s.rx a).toNat < 512 → Effects (.bld d a) s (s.wx d (Tab.get (s.lpkg l (s.tilePkg l t)).bt 0 (s.rx a).toNat))))) ∧
  (∀ (s : State) (d a b : Reg),
    let ts := s.bank.tags
    let tag := s.rx a
    let upd := fun l => s.modBank fun k => { k with tags := l }
    (s.readyFor (.tlook d a) = true →
      ((∀ e ∈ ts, e.1 ≠ tag) → Effects (.tlook d a) s (s.wx d 0xFFFFFFFFFFFFFFFF)) ∧
      ∀ pre v post, ts = pre ++ (tag, v) :: post → (∀ e ∈ pre, e.1 ≠ tag) → Effects (.tlook d a) s (s.wx d (v.zeroExtend 64))) ∧
    (s.readyFor (.tins a b) = true →
      ((s.rx b).getLsbD 63 = true → Traps (.tins a b) s 0x0C (s.rx b)) ∧
      ((s.rx b).getLsbD 63 = false →
        let new := (tag, (s.rx b).setWidth 63)
        ((∀ e ∈ ts, e.1 ≠ tag) → ts.length < 1024 / s.curLaunch.desc.tasks → Effects (.tins a b) s (upd (ts ++ [new]))) ∧
        ((∀ e ∈ ts, e.1 ≠ tag) → 1024 / s.curLaunch.desc.tasks ≤ ts.length → Effects (.tins a b) s (upd (ts.tail ++ [new]))) ∧
        ∀ pre v post, ts = pre ++ (tag, v) :: post → (∀ e ∈ pre ++ post, e.1 ≠ tag) → Effects (.tins a b) s (upd (pre ++ new :: post)))) ∧
    (s.readyFor (.tdel a) = true → ∃ l, Effects (.tdel a) s (upd l) ∧ l.Sublist ts ∧ ∀ e, e ∈ l ↔ e ∈ ts ∧ e.1 ≠ tag) ∧
    (s.readyFor .tclr = true → Effects .tclr s (upd [])))

/-! ### REP -/

/-- REP runs the word after it: each repetition is the repeated word's own step with each stepped field moved by the repetition's number
times the stride, for every word that may be repeated, counted in REPSTATE, and the two words are those that the first repetition fetched. A comparator stops it before the repetition it names
with 0x08, as an EBREAK behind it does. A word that may not be repeated, a step past the registers or the task's accumulators and a
REPSTATE that does not fit raise 0x01 with HTVAL the REP word; the last before the word is fetched, which is the model's choice (log
entry 52). A repetition of an element form completes with its elements and its count (R126, R150–R154, R156, R181, R301). -/
def Obligations.RepRepeats : Prop :=
  ∀ (s : State) (n : BitVec 6) (st c : BitVec 3), s.canIssue s.cur = true → legal s.inHandler s.accs (.rep n st c) = true →
    let bad := Traps (.rep n st c) s 0x01 (wordOf (.rep n st c))
    let rem := s.bank.repRemain.toNat
    let first := !(s.task s.cur).inSeq
    let counted := fun (t : State) (m it : Nat) =>
      (1 < m → m ≤ 64 → t.bank.repRemain = BitVec.ofNat 7 (m - 1) ∧ t.bank.repIter = BitVec.ofNat 6 (it + 1) ∧ t.bank.pc = s.bank.pc) ∧
      (m ≤ 1 → t.bank.repRemain = 0 ∧ t.bank.repIter = 0 ∧ t.bank.pc = s.bank.pc + 8)
    (rem ≠ 0 → (64 < rem ∨ s.bank.repIter.toNat + rem ≠ n.toNat + 1) → bad) ∧
    (∀ a b, (s.task s.cur).inSeq = true → (s.task s.cur).pair = some (a, b) →
      fetchAt s s.bank.pc = .ok (bytesOfWord a) ∧ fetchAt s (s.bank.pc + 4) = .ok (bytesOfWord b) ∧ s.fetchLost = none) ∧
    (∀ m it j bs, repCheck s n st c = .run m it j → fetchAt s (s.bank.pc + 4) = .ok bs →
      (∀ q, s.cmpMatch (some (it, first)) = some q → exec (.rep n st c) s = .next (takeTrap (s.withRep m it) 0x08 0 (some q))) ∧
      (s.cmpMatch (some (it, first)) = none → (repFields j).isSome = true →
        let s0 := (s.modTask s.cur fun k => { k with pair := some ((wordOf (.rep n st c)).setWidth 32, wordOfBytes bs) }).withRep m it
        exec (.rep n st c) s = exec j s0 ∧
        (∀ u, Effects j s0 u → u.bank.pc = s.bank.pc → ∃ t, exec (.rep n st c) s = .next t ∧ Retired s0 u t none ∧ counted t m it) ∧
        (∀ f, s0.readyFor j = true → intForm s0 j = some f → ∃ t v, exec (.rep n st c) s = .next t ∧
          Retired s0 (s0.modBank fun k => k.wv f.dst v) t none ∧ counted t m it ∧
          ∀ k, k < 2048 / f.width → lane f.width v k = if f.act k then BitVec.ofNat f.width (f.elem k) else lane f.width (s.bank.rv f.dst) k))) ∧
    ((rem = 0 ∨ s.bank.repIter.toNat + rem = n.toNat + 1) →
      ∀ bs j, fetchAt s (s.bank.pc + 4) = .ok bs → decode (wordOfBytes bs) = .ok j →
        (repFields j = none → j ≠ .ebreak → bad) ∧
        (j = .ebreak → exec (.rep n st c) s = .next (takeTrap (s.withRep (n.toNat + 1) 0) 0x08 0 (s.cmpMatch (some (0, true))))) ∧
        ∀ form f25 f24 f23, repFields j = some (form, f25, f24, f23) →
          let last := n.toNat * 2 ^ c.toNat
          let fits := (st.getLsbD 2 = true → stepFits s.accs last f25) ∧ (st.getLsbD 1 = true → stepFits s.accs last f24) ∧ (st.getLsbD 0 = true → stepFits s.accs last f23)
          (¬fits → bad) ∧
          (fits → legal false s.accs j = true → s.accs ≤ 16 →
            let it := if rem = 0 then 0 else s.bank.repIter.toNat
            let by_ := fun (on : Bool) => moved (if on then it * 2 ^ c.toNat else 0)
            ∃ j', repCheck s n st c = .run (if rem = 0 then n.toNat + 1 else rem) it j' ∧
              repFields j' = some (form, by_ (st.getLsbD 2) f25, by_ (st.getLsbD 1) f24, by_ (st.getLsbD 0) f23) ∧
              decode (wordOfBytes bs + BitVec.ofNat 32 ((if st.getLsbD 2 then it * 2 ^ c.toNat * 2 ^ 7 else 0) + (if st.getLsbD 1 then it * 2 ^ c.toNat * 2 ^ 14 else 0) +
                (if st.getLsbD 0 then it * 2 ^ c.toNat * 2 ^ (if form = .vr then 19 else 20) else 0))) = .ok j'))

/-! ### Vector memory -/

/-- A vector or predicate load whose active bytes are all in own TM, aligned, in blocks no engine holds: each active byte lane gets its
byte as the task's own view has it, the others keep theirs, and VLDPI moves its base by 256 (R55, R211–R213, R216). -/
def Obligations.VectorLoads : Prop :=
  ∀ (s : State) (l t i : Nat) (j : Instr) (f : VForm), s.cur = .thread l t i → s.readyFor j = true → vloadOf s j = some f →
    f.aligned → f.inOwn s → f.free (s.task s.cur) false →
    (∀ b, b < 256 → f.act b = true → ((s.tile l t).owner (f.addr b).toNat).isEngine = false) →
    ∃ v, Effects j s ((bumped s f).modBank fun k => k.setReg f.reg v) ∧ ∀ b, b < (if f.reg.file = .p then 32 else 256) →
      vbyte v b = if f.act b then s.ownByte l t i (f.addr b).toNat else vbyte (s.bank.getReg f.reg) b

/-- A vector or predicate store to the task's own blocks: its own loads see each active byte lane's byte where it went (the highest lane's
where several meet), every other byte as before, committed TM and HBM stay, the deltas are queued in ascending lanes with the task's key, a
pool past its size raises 0x43, and the sequence advances by one (R52, R54, R55, R170, R211–R213, R217).
Vector accesses trap as a whole, by the first failing check of the first failing piece: a misaligned contiguous piece raises 0x02 with its
address even with no lane active, a misaligned element when one of its bytes is; then the regions raise 0x03, a retired tile 0x06, a page
without a translation 0x05, what the region or the page does not permit 0x03, and a block of another owner 0x04, with the address of the
lowest active byte of the piece that fails (R46, R48, R50, R63, R213–R215, R366).
Vector accesses outside own TM. A load some of whose active bytes are elsewhere completes with its result on the way; when it has been
served, each active byte lane from elsewhere holds its byte as it stood then, one of own TM its byte as the task saw it at issue, the others
theirs (R55, R74, R146, R211–R214, R216). A store whose active
bytes are in another tile's TM on the package queues those bytes for it, in ascending lanes, with the task's key, raises 0x43 where the
tile's pool is then past its size, and advances the sequence once (R52, R54, R170, R211–R214, R217). One to writable global pages is a shadow
write where the page is homed here, whose first one of the superstep takes the shadow page from the domain's pool or votes 0x44, and packets of a line each, held until
CLOSING, where it is homed elsewhere; one to a tile on another package is packets of a line each, sent at once, and votes 0x42 where no path
leads there (R64, R66, R336, R338, R340). That a run over several lines is a packet a line is the model's choice (log entry 29), and so is
which pages the pool gives (log entry 12). -/
def Obligations.VectorStoresAndTraps : Prop :=
  (∀ (s : State) (l t i : Nat) (j : Instr) (f : VForm), s.cur = .thread l t i → s.readyFor j = true → vstoreOf s j = some f →
    f.aligned → f.inOwn s → f.free (s.task s.cur) true →
    (∀ b, b < 256 → f.act b = true → (s.tile l t).owner (f.addr b).toNat = .own i) →
    ∃ u es, exec j s = .next u ∧ (∀ k, k ≠ s.cur → u.task k = s.task k) ∧ u.pkgs = s.pkgs ∧ u.bank.seq = s.bank.seq + 1 ∧
      (u.launch l).pends = (s.launch l).pends ++ es ∧ (∀ e ∈ es, e.tile = t ∧ e.task = i ∧ e.seq = s.bank.seq) ∧ ((∃ b, b < 256 ∧ f.act b = true) → PoolChecked s u l t) ∧
      (es.flatMap fun e => match e.eff with
        | .tmWrite y true o bs => bs.zipIdx.map fun c => (y, o + c.2, c.1)
        | _ => []) = ((List.range 256).filter f.act).map (fun b => (t, (f.addr b).toNat, vbyte (s.bank.getReg f.reg) b)) ∧
      (∀ r, u.rx r = (bumped s f).rx r) ∧ u.bank.v = s.bank.v ∧ u.bank.p = s.bank.p ∧ (∀ l' t' o, u.tmByte l' t' o = s.tmByte l' t' o) ∧
      (∀ b, b < 256 → f.act b = true → (∀ c, b < c → c < 256 → f.act c = true → f.addr c ≠ f.addr b) →
        u.ownByte l t i (f.addr b).toNat = vbyte (s.bank.getReg f.reg) b) ∧
      ∀ o, (∀ b, b < 256 → f.act b = true → (f.addr b).toNat ≠ o) → u.ownByte l t i o = s.ownByte l t i o) ∧
  (∀ (s : State) (l t i : Nat) (j : Instr) (f : VForm) (st : Bool), s.cur = .thread l t i → s.readyFor j = true →
    (st = false ∧ vloadOf s j = some f ∨ st = true ∧ vstoreOf s j = some f) →
    (f.contiguous = true → (f.addr 0).toNat % 4 ≠ 0 → Traps j s 0x02 (f.addr 0)) ∧
    ∀ b, b < 256 → f.act b = true →
      let ea := fun c => f.addr (if f.contiguous then 0 else c / 4 * 4)
      let clear := fun c => (ea c).toNat % 4 = 0 ∧ ∀ m, ¬f.bad s l t i st m c
      (∀ c, c < 256 → f.act c = true → ¬f.together c b → c < b → clear c) →
      ((ea b).toNat % 4 ≠ 0 → Traps j s 0x02 (ea b)) ∧
      ∀ n, (ea b).toNat % 4 = 0 → f.bad s l t i st n b →
        (∀ c m, c < 256 → f.act c = true → f.together c b → f.bad s l t i st m c → n < m ∨ (n = m ∧ b ≤ c)) → Traps j s (badCause n) (f.addr b)) ∧
  ((∀ (s : State) (l t i : Nat) (j : Instr) (f : VForm), s.cur = .thread l t i → i < 4 → s.readyFor j = true → (s.task s.cur).pend = [] →
    vloadOf s j = some f → f.aligned → f.reg ≠ { file := .p, num := 0 } →
    (∃ b, b < 256 ∧ f.act b = true ∧ (s.launch l).desc.tmSize ≤ (f.addr b).toNat) →
    let own := fun b => (f.addr b).toNat < (s.launch l).desc.tmSize
    let tag := fun b => (regionOf (s.launch l).desc.tmSize (s.launch l).desc.ntile (f.addr b).toNat).tag
    (∀ b, b < 256 → f.act b = true →
      (own b → ((s.tile l t).owner (f.addr b).toNat).isEngine = false ∧ noStoreRange (s.task s.cur) (f.addr b).toNat 1) ∧
      (¬own b → readableAt s l t (f.addr b).toNat ∧ s.lostRead l (s.tilePkg l t) (f.addr b).toNat = false)) →
    (∀ b c, b < 256 → c < 256 → f.act b = true → f.act c = true → f.contiguous = true ∨ b / 4 = c / 4 → tag b = tag c) →
    ∃ u q, exec j s = .next u ∧ (∃ src, Retired s ((bumped s f).later f.reg src) u none) ∧ exec (.accessResult s.cur 0) u = .next q ∧
      (q.task s.cur).pend = [] ∧ ∀ b, b < (if f.reg.file = .p then 32 else 256) →
        vbyte (q.bank.getReg f.reg) b = if f.act b = false then vbyte (s.bank.getReg f.reg) b
          else if own b then s.ownByte l t i (f.addr b).toNat else u.loadByte l t i (f.addr b).toNat) ∧
  (∀ (s : State) (l t i x : Nat) (j : Instr) (f : VForm) (off : Nat → Nat), s.cur = .thread l t i → s.readyFor j = true → vstoreOf s j = some f →
    f.aligned → s.tilePkg l x = s.tilePkg l t → (s.tile l x).retired = false →
    (∀ b, b < 256 → f.act b = true → regionOf (s.launch l).desc.tmSize (s.launch l).desc.ntile (f.addr b).toNat = .peer x (off b)) →
    ∃ u es, exec j s = .next u ∧ (u.launch l).pends = (s.launch l).pends ++ es ∧ (∀ e ∈ es, e.tile = t ∧ e.task = i ∧ e.seq = s.bank.seq) ∧
      (es.flatMap fun e => match e.eff with
        | .tmWrite y false o bs => bs.zipIdx.map fun c => (y, o + c.2, c.1)
        | _ => []) = ((List.range 256).filter f.act).map (fun b => (x, off b, vbyte (s.bank.getReg f.reg) b)) ∧
      ((∃ b, b < 256 ∧ f.act b = true) → PoolChecked s u l x) ∧
      u.bank.seq = s.bank.seq + 1 ∧ (∀ r, u.rx r = (bumped s f).rx r) ∧ (∀ l' t' o, u.tmByte l' t' o = s.tmByte l' t' o) ∧ u.pkgs = s.pkgs) ∧
  (∀ (s : State) (l t i : Nat) (j : Instr) (f : VForm), s.cur = .thread l t i → s.readyFor j = true → vstoreOf s j = some f → f.aligned →
    let p := s.tilePkg l t
    let x := s.launch l
    let page := fun b => s.xlate l p (f.addr b).toNat
    let here := fun va => (s.xlate l p va).any fun g => g.home == p
    let bytes := ((List.range 256).filter f.act).map fun b => ((f.addr b).toNat, vbyte (s.bank.getReg f.reg) b)
    let keyed' := fun e : Pend => e.tile = t ∧ e.task = i ∧ e.seq = s.bank.seq
    (∀ b, b < 256 → f.act b = true → regionOf x.desc.tmSize x.desc.ntile (f.addr b).toNat = .glob ∧ x.inCounters (f.addr b).toNat = false ∧
      ∃ g, page b = some g ∧ pteSec g.pte = false ∧ pteW g.pte = true ∧ s.physOk g x.dom = true ∧ s.isRed l g (f.addr b).toNat = false) →
    ((∀ b g, b < 256 → f.act b = true → page b = some g → g.home = p → ∃ h ∈ x.shadows, h.home = p ∧ h.vpn = (f.addr b).toNat / 65536) →
      ∃ u es qs, exec j s = .next u ∧ u.pkgs = s.pkgs ∧ u.tiles = s.tiles ∧ u.bank.seq = s.bank.seq + 1 ∧ (∀ r, u.rx r = (bumped s f).rx r) ∧
        (u.launch l).pends = x.pends ++ es ∧ (∀ e ∈ es, keyed' e) ∧ gBytes es = bytes.filter (fun e => here e.1) ∧
        u.fabric = s.fabric ++ qs ∧ gBytes (qs.flatMap (·.pends)) = bytes.filter (fun e => !here e.1) ∧
        ∀ q ∈ qs, ∃ e w bs g, q.pends = [e] ∧ keyed' e ∧ e.eff = .gWrite w bs ∧ bs ≠ [] ∧ w.toNat / 64 = (w.toNat + bs.length - 1) / 64 ∧
          s.xlate l p w.toNat = some g ∧ q.src = p ∧ q.dst = g.home ∧ q.ra = (g.ppn * 65536 + w.toNat % 65536) / 64 * 64 % 2 ^ 64 ∧
          q.launch = l ∧ q.gfaa = none ∧ q.st = .held ∧ q.path = 0) ∧
    ∀ vpn g, (∃ b, b < 256 ∧ f.act b = true) → (∀ b, b < 256 → f.act b = true → (f.addr b).toNat / 65536 = vpn ∧ page b = some g) → g.home = p →
      (∀ h ∈ x.shadows, ¬(h.home = p ∧ h.vpn = vpn)) →
      (∀ k q, ((s.pkg p).pool x.dom).take l (s.sstepOf l) = some (k, q) → ∃ u es, exec j s = .next u ∧
        (u.launch l).shadows = x.shadows ++ [{ home := p, vpn := vpn, ppn := k, old := g.ppn }] ∧ (u.launch l).pends = x.pends ++ es ∧
        (∀ e ∈ es, keyed' e) ∧ gBytes es = bytes ∧ (u.pkg p).pool x.dom = q ∧ (∀ d, d % 4 ≠ x.dom % 4 → (u.pkg p).pool d = (s.pkg p).pool d) ∧
        (∀ o, o < 65536 → Memory.get (u.pkg p).hbm (k * 65536 + o) = Memory.get (s.pkg p).hbm (g.ppn * 65536 + o)) ∧
        (∀ o, o < k * 65536 ∨ k * 65536 + 65536 ≤ o → Memory.get (u.pkg p).hbm o = Memory.get (s.pkg p).hbm o) ∧ (∀ z, z ≠ p → u.pkg z = s.pkg z) ∧
        u.tiles = s.tiles ∧ u.bank.seq = s.bank.seq + 1) ∧
      (((s.pkg p).pool x.dom).take l (s.sstepOf l) = none → ∃ u, exec j s = .next u ∧ 0x44 ∈ (u.lpkg l p).causes ∧ u.pkgs = s.pkgs ∧ u.tiles = s.tiles ∧
        u.bank.seq = s.bank.seq + 1)) ∧
  ∀ (s : State) (l t i y : Nat) (j : Instr) (f : VForm) (off : Nat → Nat), s.cur = .thread l t i → s.readyFor j = true → vstoreOf s j = some f →
    f.aligned → s.tilePkg l y ≠ s.tilePkg l t → (s.tile l y).retired = false →
    (∀ b, b < 256 → f.act b = true → regionOf (s.launch l).desc.tmSize (s.launch l).desc.ntile (f.addr b).toNat = .peer y (off b)) →
    let p := s.tilePkg l t
    let dst := s.tilePkg l y
    let ra := fun o => 0x10000000000 + y * 0x200000 + o / 64 * 64
    ((∀ b, b < 256 → f.act b = true → s.route p dst (BitVec.ofNat 64 (ra (off b))) ≠ none) →
      ∃ u qs, exec j s = .next u ∧ u.fabric = s.fabric ++ qs ∧ (u.launch l).pends = (s.launch l).pends ∧ u.pkgs = s.pkgs ∧ u.tiles = s.tiles ∧
        u.bank.seq = s.bank.seq + 1 ∧ (∀ r, u.rx r = (bumped s f).rx r) ∧
        ((qs.flatMap (·.pends)).flatMap fun e => match e.eff with
          | .tmWrite z false o bs => bs.zipIdx.map fun c => (z, o + c.2, c.1)
          | _ => []) = ((List.range 256).filter f.act).map (fun b => (y, off b, vbyte (s.bank.getReg f.reg) b)) ∧
        ∀ q ∈ qs, ∃ e o bs w, q = { src := p, dst := dst, ra := ra o, path := w, launch := l, pends := [e], gfaa := none, st := .inFlight } ∧
          s.route p dst (BitVec.ofNat 64 (ra o)) = some w ∧ e.tile = t ∧ e.task = i ∧ e.seq = s.bank.seq ∧ e.eff = .tmWrite y false o bs ∧ bs ≠ [] ∧
          o / 64 = (o + bs.length - 1) / 64) ∧
    ((∃ b, b < 256 ∧ f.act b = true ∧ s.route p dst (BitVec.ofNat 64 (ra (off b))) = none) →
      ∃ u, exec j s = .next u ∧ 0x42 ∈ (u.lpkg l p).causes ∧ u.pkgs = s.pkgs ∧ u.tiles = s.tiles ∧ u.bank.seq = s.bank.seq + 1))

/-! ### Vector computation -/

/-- Every element form of floating point, conversions and immediates among them: active elements get their rounded value, inactive ones keep
theirs, elements past those processed are zero, and the flags and the draws taken are recorded; a flag that TRAPEN enables traps 0x0A
instead. A format register that names no narrow format traps 0x0D (R104, R106, R108–R111, R189, R190, R195–R203, R209). -/
def Obligations.FpElements : Prop :=
  (∀ (s : State) (i : Instr) (f : FpForm), s.readyFor i = true → fpForm s i = some f →
    (s.bank.trapen &&& f.flags s ≠ 0 → Traps i s 0x0A ((f.flags s).zeroExtend 64)) ∧
    (s.bank.trapen &&& f.flags s = 0 →
      let m := BitVec.ofNat 64 (if f.draws then f.below f.count else 0)
      ∃ v, Effects i s (s.modBank fun k => { k.wv f.dst v with tflags := k.tflags ||| f.flags s, pipctr := k.pipctr + m, pipdraw := k.pipdraw + m }) ∧
        ∀ k, k < 2048 / f.width → lane f.width v k =
          if k < f.count then (if f.act k then BitVec.ofNat f.width (f.at s k).1 else lane f.width (s.bank.rv f.dst) k) else 0)) ∧
  (∀ (s : State) (d a : Reg) (f : BitVec 3) (g : Pg), narrowOk (s.fmtReg f) = false →
    ∀ i ∈ [.vcvtn d a f g, .vcvtw d a f g, .vbmax d a f g], s.readyFor i = true → Traps i s 0x0D (f.zeroExtend 64))

/-- Integer elements, moves, permutes, VISUMR and VLI: each active element gets its value and no flag changes; VLI of FP8 without an 8-bit
format in FMT0 traps 0x0D (R194, R204–R207, R209).
Compares and predicate operations write whole element groups of byte lanes, PCNT and VMVXS an x register; a write to p0 is discarded; an
FP compare that would raise an enabled NV traps 0x0A (R110, R186, R190, R191, R206, R208). -/
def Obligations.IntegerAndPredicateElements : Prop :=
  ((∀ (s : State) (i : Instr) (f : IntForm), s.readyFor i = true → intForm s i = some f →
    ∃ v, Effects i s (s.modBank fun k => k.wv f.dst v) ∧
      ∀ k, k < 2048 / f.width → lane f.width v k = if f.act k then BitVec.ofNat f.width (f.elem k) else lane f.width (s.bank.rv f.dst) k) ∧
  (∀ (s : State) (d : Reg) (imm : BitVec 16), s.readyFor (.vli .fp8 d imm) = true →
    ¬(narrowOk (s.fmtReg 0) = true ∧ fmtClass (s.fmtReg 0) = .c8) → Traps (.vli .fp8 d imm) s 0x0D 0)) ∧
  ((∀ (s : State) (i : Instr) (f : PredForm), s.readyFor i = true → predForm s i = some f →
    (s.bank.trapen &&& f.flags ≠ 0 → Traps i s 0x0A (f.flags.zeroExtend 64)) ∧
    (s.bank.trapen &&& f.flags = 0 → ∃ v, Effects i s (s.modBank fun k => { k.wp f.dst v with tflags := k.tflags ||| f.flags }) ∧
      (∀ j, j < 256 → v.getLsbD j = f.bit j) ∧ (s.bank.wp f.dst v).rp f.dst = (if f.dst = 0 then BitVec.allOnes 256 else v))) ∧
  (∀ (s : State) (i : Instr) (d : Reg) (v : Word), s.readyFor i = true → scalarForm s i = some (d, v) → Effects i s (s.wx d v)))

/-- VFSUMR and VFMAXR over the pairwise tree, and VBMAX's two block scales: the result stands in the lowest element, the rest is zero, the
flags of every node are raised; an enabled one traps 0x0A (R117, R192–R194, R202). -/
def Obligations.LaneReductions : Prop :=
  (∀ (s : State) (i : Instr) (es : FpTy) (d a : Reg) (g : Pg) (idle : Nat) (op : FVal → FVal → FVal × FFlags), s.readyFor i = true →
    fpReduce s i = some (es, d, a, g, idle, op) →
    let f := fpFmt es
    let act := fun k => (s.bank.rg g).getLsbD (es.size * k)
    let join := fun x y : Nat × FFlags => let z := fvRound f s.rmode.noSr 0 (op (fd f x.1) (fd f y.1)); (z.1, z.2 ||| x.2 ||| y.2)
    let tree := pairTree join (if es.size = 4 then 6 else 7) fun k => (if act k then code (8 * es.size) (s.bank.rv a) k else idle, (0 : FFlags))
    let r := if (List.range (256 / es.size)).any act then tree else (0, 0)
    (s.bank.trapen &&& r.2 ≠ 0 → Traps i s 0x0A (r.2.zeroExtend 64)) ∧
    (s.bank.trapen &&& r.2 = 0 → Effects i s (s.modBank fun k => { k.wv d (BitVec.ofNat 2048 r.1) with tflags := k.tflags ||| r.2 }))) ∧
  (∀ (s : State) (d a : Reg) (f : BitVec 3) (g : Pg), s.readyFor (.vbmax d a f g) = true → narrowOk (s.fmtReg f) = true →
    let x := fun k => fd fp32 (code 32 (s.bank.rv a) k)
    let act := (List.range 64).filter fun k => (s.bank.rg g).getLsbD (4 * k)
    let fl : FFlags := if act.any fun k => (x k).isSig then .nv else 0
    let scale := fun b => scalesel ((act.filter fun k => k / 32 == b).map x) (fmtOf (s.fmtReg f))
    (s.bank.trapen &&& fl ≠ 0 → Traps (.vbmax d a f g) s 0x0A (fl.zeroExtend 64)) ∧
    (s.bank.trapen &&& fl = 0 →
      Effects (.vbmax d a f g) s (s.modBank fun k => { k.wv d (BitVec.ofNat 2048 (scale 0 % 256 + 256 * (scale 1 % 256))) with tflags := k.tflags ||| fl })))

/-- An SFU instruction puts a request with its operands and modes into the tile's FIFO, and waits while 16 are there; the completion of the
request at the head writes the active elements and raises the flags, or, with a flag enabled at issue, writes nothing and traps 0x0A at
the instruction (R41, R109, R197, R198, R309). -/
def Obligations.SfuRequests : Prop :=
  (∀ (s : State) (l t n : Nat) (i : Instr) (fn : BitVec 6) (es : FpTy) (d a b : Reg) (g : Pg), s.cur = .thread l t n → s.readyFor i = true →
    sfuOf i = some (fn, es, d, a, b, g) →
    (16 ≤ (s.tile l t).sfu.length → exec i s = .next s.notReady) ∧
    ((s.tile l t).sfu.length < 16 → Effects i s (s.modTile l t fun x => { x with sfu := x.sfu ++
      [{ task := n, fn := fn, es := es, vd := d, a := s.bank.rv a, b := s.bank.rv b, old := s.bank.rv d, act := s.bank.rg g, rmode := s.bank.rmode,
         trapen := s.bank.trapen, pc := s.bank.pc, rep := (s.task s.cur).rep }] }))) ∧
  (∀ (s : State) (l t : Nat) (q : SfuReq) (rest : List SfuReq), (s.tile l t).sfu = q :: rest →
    let k := Slot.thread l t q.task
    let fl := (sfuActive q).foldl (fun f n => f ||| (sfuAt q n).2) 0
    ∃ u, exec (.sfuRequestComplete l t) s = .next u ∧ (u.tile l t).sfu = rest ∧ (∀ j, j ≠ k → u.task j = s.task j) ∧
      (q.trapen &&& fl = 0 → ∃ v, u.task k = { s.task k with bank := { (s.task k).bank.wv q.vd v with tflags := (s.task k).bank.tflags ||| fl } } ∧
        ∀ n, n < 256 / q.es.size → lane (8 * q.es.size) v n =
          if q.act.getLsbD (q.es.size * n) then BitVec.ofNat _ (sfuAt q n).1 else lane (8 * q.es.size) q.old n) ∧
      (q.trapen &&& fl ≠ 0 → (∃ r, (u.task k).status = .frozen r ∧ r.cause = 0x0A ∧ r.pc = q.pc ∧ r.tval = fl.zeroExtend 64) ∧
        (u.task k).bank.v = (s.task k).bank.v ∧ (u.task k).bank.tflags = (s.task k).bank.tflags))

/-! ### Matrix -/

/-- A matrix instruction waits, before any check, while the task's queue holds eight requests; else, with operands that pass the checks of
R267, it queues one request with what its operands hold at issue and moves the bases that PI asks for; a bad descriptor or format traps
with R267's HTVAL, a byte outside the task's memory with the lowest such byte of the one footprint over A and B, and a byte read in an ENGINE
block, or written by MST in one that is not the task's, with the lowest (R40, R50, R94, R98, R256, R257, R260–R265, R267–R275). That two operands of the 32-bit class report A's index, and that an invalid format's 32-bit value still picks
the class of the BASE and RPITCH check, are the model's choices (log entries 26 and 65), as is that of two descriptors that fail A's is
reported (log entry 76).
MRD reads an accumulator row and MWAIT goes on once no request of the task names the accumulator; until then they wait, MRD before any of
its checks; a row past 63 traps 0x0C (R146, R258, R272, R275). -/
def Obligations.MatrixRequestsAndWaits : Prop :=
  (∀ (s : State) (m : Acc) (a b : Reg), let A := s.dpair a; let B := s.dpair b; let full := 8 ≤ (s.task s.cur).mreq.length
    (∀ i ∈ [.mzero m, .mma m a b, .mmas m a b, .mmav m a b, .mst m a, .mwr m a b], s.canIssue s.cur = true → full → exec i s = .next s.notReady) ∧
    (s.readyFor (.mzero m) = true → Queued (.mzero m) s (newReq s m .zero [] none) []) ∧
    (s.readyFor (.mwr m a b) = true → match rowOf s (s.rx b) with
      | none => Traps (.mwr m a b) s 0x0C (s.rx b)
      | some r => Queued (.mwr m a b) s (newReq s m (.mwr r (s.bank.rv a)) [] none) []) ∧
    let idx := fun (w : Word) => BitVec.ofNat 64 (w.toNat / 2 ^ 16 % 8)
    let badFmt := fun w f => ¬fmtFits f ∨ widthOf f = 16 ∧ scaleMode w = 1
    let size := s.curLaunch.desc.tmSize
    let engine := engineAt s s.curL s.curT
    let pA := operandByte (widthOf A.fmt) A.w0 A.w1
    let pB := operandByte (widthOf B.fmt) B.w0 B.w1
    let outside := fun i P => ∀ f, FootOf P f → size ≤ f.hi → Traps i s 0x03 (BitVec.ofNat 64 (max f.lo size))
    let inside := fun P => ∀ f, FootOf P f → f.hi < size
    let read := fun i P => inside P → ∀ o, P o → engine o → (∀ q, P q → engine q → o ≤ q) → Traps i s 0x04 (BitVec.ofNat 64 o)
    (∀ (sp : Bool) i, i = (if sp then .mmas m a b else .mma m a b) → s.readyFor i = true → (s.task s.cur).mreq = [] →
      let fitsA := descFits sp false A.w0 A.w1 (widthOf A.fmt)
      let fitsB := descFits false false B.w0 B.w1 (widthOf B.fmt)
      let both := fun o => pA o ∨ pB o
      (¬fitsA → Traps i s 0x0C A.w1) ∧ (fitsA → ¬fitsB → Traps i s 0x0C B.w1) ∧
      (fitsA → fitsB → (badFmt A.w1 A.fmt → Traps i s 0x0D (idx A.w1)) ∧
        (¬badFmt A.w1 A.fmt → badFmt B.w1 B.fmt ∨ widthOf A.fmt ≠ widthOf B.fmt → Traps i s 0x0D (idx B.w1)) ∧
        (¬badFmt A.w1 A.fmt → ¬badFmt B.w1 B.fmt → widthOf A.fmt = widthOf B.fmt → (widthOf A.fmt = 32 → Traps i s 0x0D (idx A.w1)) ∧
          (widthOf A.fmt ≠ 32 → outside i both ∧ read i both ∧ (inside both → (∀ o, both o → ¬engine o) → ∃ ma mb fa fb,
            Holds s A ma ∧ Holds s B mb ∧ FootOf pA fa ∧ FootOf pB fb ∧ Queued i s (newReq s m ((if sp then MOp.mmas else MOp.mma) ma mb) [fa, fb] none) [a, b]))))) ∧
    (let i := Instr.mmav m a b
     let fits := descFits false false B.w0 B.w1 (widthOf B.fmt)
     let usable := ¬badFmt B.w1 B.fmt ∧ widthOf B.fmt ≠ 32
     s.readyFor i = true → (s.task s.cur).mreq = [] → (¬fits → Traps i s 0x0C B.w1) ∧ (fits → ¬usable → Traps i s 0x0D (idx B.w1)) ∧
      (fits → usable → outside i pB ∧ read i pB ∧ (inside pB → (∀ o, pB o → ¬engine o) → ∃ mb f,
        Holds s B mb ∧ FootOf pB f ∧ Queued i s (newReq s m (.mmav (s.v16Bytes a) mb) [f] none) [b]))) ∧
    (let i := Instr.mst m a
     let fits := descFits false true A.w0 A.w1 (widthOf A.fmt)
     let usable := fmtFits A.fmt ∧ (scaleMode A.w1 = 1 → A.fmt.toNat % 4 = 0)
     let P := destByte (widthOf A.fmt) A.w0 A.w1
     let mine := fun o => (s.tile s.curL s.curT).owner o = .own s.curI
     s.readyFor i = true → (s.task s.cur).mreq = [] → (¬fits → Traps i s 0x0C A.w1) ∧ (fits → ¬usable → Traps i s 0x0D (idx A.w1)) ∧
      (fits → usable → outside i P ∧ (inside P → ∀ o, P o → ¬mine o → (∀ q, P q → ¬mine q → o ≤ q) → Traps i s 0x04 (BitVec.ofNat 64 o)) ∧
        (inside P → (∀ o, P o → mine o) → ∃ f u, FootOf P f ∧ Queued i s (newReq s m (.mst A.w0 A.w1 A.fmt s.bank.rmode s.bank.pipctr s.bank.seq) [] (some f)) [a] ∧
          exec i s = .next u ∧ u.bank.seq = s.bank.seq + 1 ∧ u.bank.pipctr = s.bank.pipctr + (if s.rmode = .sr then 4096 else 0))))) ∧
  (∀ (s : State) (l t i : Nat) (d : Reg) (m : Acc) (a : Reg), s.cur = .thread l t i →
    let acc := i * (s.launch l).desc.accs + m.toNat
    let idle := ∀ q ∈ (s.task s.cur).mreq, q.acc ≠ acc
    (s.readyFor (.mwait m) = true → (idle → Effects (.mwait m) s s) ∧ (¬idle → exec (.mwait m) s = .next s.notReady)) ∧
    (s.canIssue s.cur = true → ¬idle → exec (.mrd d m a) s = .next s.notReady) ∧
    (s.readyFor (.mrd d m a) = true → match rowOf s (s.rx a) with
      | none => Traps (.mrd d m a) s 0x0C (s.rx a)
      | some r => ∃ v, Effects (.mrd d m a) s (s.modBank fun k => k.wv d v) ∧
          ∀ j, j < 64 → code 32 v j = (s.tile l t).accElem acc r j))

/-- The array starts the tile's oldest request and frees its fetch ranges at once, where R269 says only "once the operand has been read" (the
model's choice, log entry 33); a started request completes with its effect on its accumulator,
element by element, or with MST's rows queued under its key, and leaves every other accumulator (R40, R119, R256, R258, R269–R274). -/
def Obligations.MatrixArray : Prop :=
  (∀ (s : State) (l t i : Nat) (q : MReq) (rest : List MReq), i < 4 → (s.task (.thread l t i)).mreq = q :: rest → q.started = false →
    (∀ n, n < 4 → n ≠ i → ∀ r ∈ (s.task (.thread l t n)).mreq, r.started = false → q.age < r.age) →
    ∃ u, exec (.matrixRequestStart l t) s = .next u ∧ u.task (.thread l t i) = { s.task (.thread l t i) with mreq := { q with started := true, fetch := [] } :: rest } ∧
      (∀ k, k ≠ .thread l t i → u.task k = s.task k) ∧ (u.tile l t).lastMat = i) ∧
  (∀ (s : State) (l t i : Nat) (q : MReq) (rest : List MReq), i < 4 → (s.task (.thread l t i)).mreq = q :: rest → q.started = true →
    (∀ row v, q.op = .mwr row v → row < 64) →
    let x := s.tile l t
    let k := s.task (.thread l t i)
    ∃ u, exec (.matrixRequestComplete l t i) s = .next u ∧ (u.task (.thread l t i)).mreq = rest ∧
      (u.task (.thread l t i)).bank.x = k.bank.x ∧ (u.task (.thread l t i)).bank.v = k.bank.v ∧
      (∀ n r c, n ≠ q.acc → r < 64 → c < 64 → (u.tile l t).accElem n r c = x.accElem n r c) ∧
      match q.op with
      | .zero => ∀ r c, r < 64 → c < 64 → (u.tile l t).accElem q.acc r c = 0
      | .mwr row v => ∀ r c, r < 64 → c < 64 → (u.tile l t).accElem q.acc r c = if r = row then code 32 v c else x.accElem q.acc r c
      | .mma a b => (∀ r c, r < 64 → c < 64 → (u.tile l t).accElem q.acc r c =
            (accumulate ((List.range ((fmtClass a.fmt).k / 32)).map (a.block r)) ((List.range ((fmtClass b.fmt).k / 32)).map (b.block c)) (x.accElem q.acc r c, 0)).1 % 2 ^ 32) ∧
          (u.task (.thread l t i)).bank.tflags = k.bank.tflags ||| (mmaResult (x.accCodes q.acc) a.rows b.rows).2
      | .mmas a b => (∀ r c, r < 64 → c < 64 → (u.tile l t).accElem q.acc r c =
            (accumulate ((List.range ((fmtClass a.fmt).k / 32)).map (a.block r)) ((List.range ((fmtClass b.fmt).k / 32)).map (b.block c)) (x.accElem q.acc r c, 0)).1 % 2 ^ 32) ∧
          (u.task (.thread l t i)).bank.tflags = k.bank.tflags ||| (mmaResult (x.accCodes q.acc) a.rows b.rows).2
      | .mmav a b => (∀ r c, r < 64 → c < 64 → (u.tile l t).accElem q.acc r c =
            (accumulate ((vecRows a b.fmt).getD r []) ((List.range ((fmtClass b.fmt).k / 32)).map (b.block c)) (x.accElem q.acc r c, 0)).1 % 2 ^ 32) ∧
          (u.task (.thread l t i)).bank.tflags = k.bank.tflags ||| (mmaResult (x.accCodes q.acc) (vecRows a b.fmt) b.rows).2
      | .mst w0 w1 fmt rm ctr seq =>
        let d := mstData (pipKey (s.launch l).desc.seed t i) fmt w1 rm ctr (x.accCodes q.acc)
        (u.launch l).pends = (s.launch l).pends ++ d.1.zipIdx.map (fun e => { tile := t, task := i, seq := seq, eff := .tmWrite t true (rowStart w0 w1 e.2) e.1 }) ∧
          (u.task (.thread l t i)).bank.tflags = k.bank.tflags ||| d.2)

/-! ### The quasi-random unit -/

/-- The streams: a skew between QSTEP and the superstep traps 0x0B before any other check; QRV, QRVF and QRX compute points and trap 0x0C past
dimension 255; QRNEXT and QRSKIP move the stream, PIPV draws 64 words, QRTLD traps 0x02 and 0x0C on its operands and 0x03 or 0x04 on a byte
outside TM or not the task's, and else queues rows of the direction table (R106, R121, R278–R282). That HTVAL of QRTLD's 0x03 and 0x04 is the
lowest offset that fails is the model's reading (log entry 76). -/
def Obligations.RandomStreams : Prop :=
  ∀ (s : State) (l t n : Nat) (d a b : Reg), s.cur = .thread l t n →
    let k := s.bank
    let skew := k.qstep - BitVec.ofNat 64 (s.lpkg l (s.tilePkg l t)).sstep
    let tab := (s.tile l t).qrtab
    (∀ i, usesStream i = true → s.readyFor i = true → skew ≠ 0 → Traps i s 0x0B skew) ∧
    (skew = 0 →
      (∀ i (fp : Bool), i = (if fp then .qrvf d a else .qrv d a) → s.readyFor i = true →
        let dim := k.qdim.toNat + (s.rx a).toNat
        (255 < dim → Traps i s 0x0C (s.rx a)) ∧
        (dim ≤ 255 → ∃ v, Effects i s (s.modBank fun k => k.wv d v) ∧ ∀ j, j < 64 →
          let p := point (dirRow tab dim) k.qseed k.qmode (k.qidx + BitVec.ofNat 64 j) dim
          code 32 v j = if fp then pointF p else p.toNat)) ∧
      (s.readyFor (.qrx d a b) = true → (255 < (s.rx b).toNat → Traps (.qrx d a b) s 0x0C (s.rx b)) ∧
        ((s.rx b).toNat ≤ 255 → Effects (.qrx d a b) s (s.wx d ((point (dirRow tab (s.rx b).toNat) k.qseed k.qmode (s.rx a) (s.rx b).toNat).zeroExtend 64)))) ∧
      (s.readyFor .qrnext = true → Effects .qrnext s (s.modBank fun k => { k with qidx := k.qidx + 64, qdraw := k.qdraw + 64 })) ∧
      (s.readyFor (.qrskip a) = true → Effects (.qrskip a) s (s.modBank fun k => { k with qidx := k.qidx + s.rx a, qdraw := k.qdraw + s.rx a })) ∧
      (s.readyFor (.pipv d) = true → ∃ v, Effects (.pipv d) s (s.modBank fun k => { k.wv d v with pipctr := k.pipctr + 64, pipdraw := k.pipdraw + 64 }) ∧
        ∀ j, j < 64 → code 32 v j = (draw (pipKey (s.launch l).desc.seed t n) (k.pipctr + BitVec.ofNat 64 j)).toNat)) ∧
    (s.readyFor (.qrtld a b) = true →
      let w := (s.rx b).toNat
      let first := w % 2 ^ 16
      let c := w / 2 ^ 16 % 2 ^ 16
      let ok := w < 2 ^ 32 ∧ c ≠ 0 ∧ first + c ≤ 256
      (¬ok → Traps (.qrtld a b) s 0x0C (s.rx b)) ∧ (ok → (s.rx a).toNat % 4 ≠ 0 → Traps (.qrtld a b) s 0x02 (s.rx a)) ∧
      let bad := readFails s l t fun o => (s.rx a).toNat ≤ o ∧ o < (s.rx a).toNat + 128 * c
      (ok → (s.rx a).toNat % 4 = 0 → ∀ c o, FirstFails bad c o → Traps (.qrtld a b) s (readCause c) (BitVec.ofNat 64 o)) ∧
      (ok → (s.rx a).toNat % 4 = 0 → (∀ c o, ¬bad c o) → (s.task s.cur).mreq = [] →
        ∃ u, exec (.qrtld a b) s = .next u ∧ Retired s (s.queue (.qrtld first (s.ownBytes l t n (s.rx a).toNat (128 * c)))) u none ∧
          (u.launch l).pends = (s.launch l).pends ++ [keyed s (.qrtld first (s.ownBytes l t n (s.rx a).toNat (128 * c)))]))

/-! ### Bring-up, power, drain -/

/-- Bring-up: RESET_RELEASE goes on to step 2 with an image whose key hash, signature and security version the ROM accepts, and else
halts; CLUSTER_WAKE wakes or fuses off cluster woken / 8 of die woken % 8, HBM_TRAINING takes a failing stack and its die out of
service, SRAM_INITIALISATION fuses failing tiles off, OPTICAL_TRAINING marks failing lanes, writes the pairing table, goes to step 8,
reports fewer than 1,984 tiles, sets every stack to tracker mode and forms the star (R4, R291, R359, R368, R369, R371). FAIL's code,
the dies of stacks, the star's forming, and that the size of window B comes with the release and the image's firmware raises the fused
minimum at once are the model's (log entries 14, 39, 40 and 55). -/
def Obligations.BringUpSteps : Prop :=
  ∀ (s : State) (p : Nat) (bad : BitVec 16) (tiles : List Nat) (lanes : List (Nat × Nat)) (pairing : List (Nat × BitVec 64)) (ms : List Nat)
    (sched : List (BitVec 32)), p < 192 → (s.pkg p).drain = .none → (s.pkg p).boot.halted = false →
    let x := s.pkg p
    let fused := fun (y : Pkg) d c i => (y.fuses.tiles.toList.getD d 0).getLsbD (16 * c + i)
    (x.boot.step = 1 → ∀ (img : RomImage) (bar : Nat), bar ≤ 9 →
      let good := img.keyHash = x.fuses.keyHash ∧ img.verified = true ∧ x.fuses.minVersion.toNat ≤ img.version.toNat
      (good → PkgBecomes (.resetRelease p { img := img, bar := bar }) s p
        { x with bar := bar, boot := { x.boot with step := 2, measurement := img.measurement, version := img.version },
                 fuses := { x.fuses with minVersion := if x.fuses.minVersion.toNat < img.raise.toNat then img.raise else x.fuses.minVersion } }) ∧
      (¬good → ∃ c, c ≠ 0 ∧ PkgBecomes (.resetRelease p { img := img, bar := bar }) s p { x with bar := bar, boot := { x.boot with fail := c, halted := true } })) ∧
    (x.boot.step = 2 → ∀ ok, ∃ t, exec (.clusterWake p ok) s = .next t ∧ OnlyPkg p s t ∧ { t.pkg p with boot := x.boot, harvest := x.harvest, fuses := x.fuses } = x ∧
      (t.pkg p).boot.woken = x.boot.woken + 1 ∧ (t.pkg p).boot.step = (if x.boot.woken < 127 then 2 else 3) ∧
      (if ok = true then (t.pkg p).boot.fail = x.boot.fail else (t.pkg p).boot.fail ≠ 0) ∧
      ∀ d c i, d < 8 → c < 16 → i < 16 → let kept := ok || !(d == x.boot.woken % 8 && c == x.boot.woken / 8)
        (t.pkg p).usable d c i = (x.usable d c i && kept) ∧ fused (t.pkg p) d c i = (fused x d c i && kept)) ∧
    (x.boot.step = 3 → ∃ t, exec (.hbmTraining p bad) s = .next t ∧ OnlyPkg p s t ∧ { t.pkg p with boot := x.boot, harvest := x.harvest, stacksOut := x.stacksOut } = x ∧ (t.pkg p).stacksOut = bad ∧
      (t.pkg p).boot.step = 4 ∧ (if bad = 0 then (t.pkg p).boot.fail = x.boot.fail else (t.pkg p).boot.fail ≠ 0) ∧
      ∀ d c i, d < 8 → c < 16 → i < 16 → (t.pkg p).usable d c i = (x.usable d c i && !bad.getLsbD (2 * d) && !bad.getLsbD (2 * d + 1))) ∧
    (x.boot.step = 4 → (∀ n ∈ tiles, n < 2048) → ∃ t, exec (.sramInitialisation p tiles) s = .next t ∧ OnlyPkg p s t ∧
      { t.pkg p with boot := x.boot, harvest := x.harvest, fuses := x.fuses } = x ∧ (t.pkg p).boot.step = 5 ∧
      (if tiles = [] then (t.pkg p).boot.fail = x.boot.fail else (t.pkg p).boot.fail ≠ 0) ∧
      ∀ d c i, d < 8 → c < 16 → i < 16 → let kept := !tiles.contains (256 * d + 16 * c + i)
        (t.pkg p).usable d c i = (x.usable d c i && kept) ∧ fused (t.pkg p) d c i = (fused x d c i && kept)) ∧
    (x.boot.step = 5 → x.image = none → (Instr.opticalTraining p lanes pairing ms sched).wf = true → (pairing.map (·.1)).Nodup →
      ∃ t, exec (.opticalTraining p lanes pairing ms sched) s = .next t ∧ { t with pkgs := s.pkgs, star := s.star } = s ∧
        (∀ q, q ≠ p → t.pkg q = s.pkg q) ∧ (t.pkg p).harvest = x.harvest ∧
        (t.pkg p).boot.step = 8 ∧ (t.pkg p).boot.degraded = decide (x.usableAll < 1984) ∧
        (if lanes = [] then (t.pkg p).boot.fail = x.boot.fail else (t.pkg p).boot.fail ≠ 0) ∧
        (∀ e ∈ lanes, (((t.pkg p).port e.1).lane e.2).mode = .failed) ∧
        (∀ port n, (port, n) ∉ lanes → ((t.pkg p).port port).lane n = (x.port port).lane n) ∧
        (∀ n, n < 16 → t.windowA p (0x1000 + 64 * n) true = 1) ∧ (∀ e ∈ pairing, Tab.get (t.pkg p).pairs 0 e.1 = e.2 &&& 0x1F1F) ∧
        t.star = (if ms = [] ∨ s.star.members ≠ [] then s.star else { Star.zero with members := ms, sched := sched.take 1024 }))

/-- Grid power steps: PWRSTEP by the host or over the sideband, two agreeing samples of the pins, and a walk of the 128 clusters
that ends with PSTEPACK, PWREVT.WALKDONE and vector 32 (R373–R375); from the start of a walk towards level 7 the package is one on which
every launch parks at its next barrier, as StagesAndWaves states, and none starts, until a walk to a lower level ends (R374, R376). From a power failure to the end of the drain a write of PWRSTEP has no effect (R377).
The persistent base: PBCMD 1 opens a new dirty set, 2 discards the old one, and DIRTY may leave the ceiling, 3 folds the new one into it
(R381). What the sideband
returns: PWRSTAT, PWRNOW, DIRTY, PWREVT and BOOTSTAT as window A shows them, zeros elsewhere (R375, R384). -/
def Obligations.GridPowerAndPersistentBase : Prop :=
  (∀ (s : State) (p : Nat) (v : Word) (pins : BitVec 3) (i : Instr), p < 192 →
    let x := s.pkg p
    let w := x.power
    (i ∈ [Instr.pwrstep p v, .i3cPrivateWrite p 0 v] → (x.drain ≠ .none → exec i s = .next s) ∧
      (x.drain = .none → ∃ u, PkgBecomes i s p { x with power := u } ∧ u.pwrstep = v.setWidth 3 ∧ Demands w u ∧
        { u with pwrstep := w.pwrstep, target := w.target, ack := w.ack, pending := w.pending } = w)) ∧
    (∀ a, a ≠ 0 → exec (.i3cPrivateWrite p a v) s = .next s) ∧
    (∃ u, PkgBecomes (.gridstepSample p pins) s p { x with power := u } ∧ Demands w u ∧
      (if w.sample = pins then u.pins = pins ∧ u.sample = w.sample else u.pins = w.pins ∧ u.sample = pins) ∧
      { u with pins := w.pins, sample := w.sample, target := w.target, ack := w.ack, pending := w.pending } = w) ∧
    (w.pending = false → exec (.walkStart p) s = .next s) ∧
    (w.pending = true → ∃ t, exec (.walkStart p) s = .next t ∧ OnlyPkg p s t ∧ t.pkg p = { x with power := { w with walk := some 0, pending := false, park7 := w.park7 || w.target == 7 } } ∧
      (w.target = 7 → (t.pkg p).parksAll = true ∧ ∀ d, t.mayStart p d = false)) ∧
    (w.pending = false → ∀ n, w.walk = some n →
      (n < 127 → PkgBecomes (.walkStep p) s p { x with power := { w with levels := w.levels.set n w.target, walk := some (n + 1) } }) ∧
      (127 ≤ n → PkgBecomes (.walkStep p) s p { x with
        power := { w with levels := w.levels.set n w.target, walk := none, ack := true, park7 := w.target == 7, evt := w.evt ||| 4 },
        msix := if w.evt.getLsbD 2 = true then x.msix else x.msix ++ [32] })) ∧
    (w.pending = true → exec (.walkStep p) s = .next s)) ∧
  (∀ (s : State) (p : Nat), p < 192 →
    let x := s.pkg p
    let w := x.power
    (w.dirtyNew = none → PkgBecomes (.pbcmdStart p) s p { x with power := { w with dirtyNew := some [] } } ∧
      exec (.pbcmdCommit p) s = .next s ∧ exec (.pbcmdAbandon p) s = .next s) ∧
    (∀ n, w.dirtyNew = some n → n.Nodup →
      PkgBecomes (.pbcmdCommit p) s p { x with power := { w with dirtyOld := n, dirtyNew := none, ceilPark := w.ceilPark && decide (w.draincap.toNat ≤ 65536 * n.length) } }) ∧
    (∀ n, w.dirtyNew = some n → ∃ o, PkgBecomes (.pbcmdAbandon p) s p { x with power := { w with dirtyOld := o, dirtyNew := none } } ∧
      o.Nodup ∧ ∀ g, g ∈ o ↔ g ∈ w.dirtyOld ∨ g ∈ n) ∧
    (x.drain = .off → ∀ a, exec (.i3cPrivateRead p a) s = .next s) ∧
    (x.drain ≠ .off → ∀ a, ∃ t, exec (.i3cPrivateRead p a) s = .next t ∧ { t with pkgs := s.pkgs, free := s.free } = s ∧
      { t.pkg p with hostData := x.hostData } = x ∧
      (t.pkg p).hostData = natLe 8 (if a = 0x08 ∨ a = 0x10 ∨ a = 0x28 ∨ a = 0x38 then s.windowA p (0x200000 + a.toNat) false
        else if a = 0x1000 then s.windowA p 0x10 false else 0).toNat))

/-- PFAIL stops issue on the package and takes no write of PWRSTEP; a launch there whose superstep is open aborts with 0x48, uncounted, and
sends its abort when it runs on other packages too; a commit that is applied stands, and where the package's vote is final the order of the
frames decides. The drain starts once every such superstep has committed or aborted; its image has every dirty page, the tables, the records of the
launches that run or wait here, an abort under way counted as one re-run, and one image for each tile of the launches that ran here, with its comparators; at DRAIN_END VALID is set
and nothing of the package is left but fuses and image, and a package elsewhere that awaits an answer of it has lost traffic and votes 0x42, or
in ABORT waits for new paths (R338, R339); POWER_RETURN starts bring-up with a complete image only (R288, R300, R303, R349, R368, R377–R379).
RSTGO ends a domain's restore: its drained pages come back and a launch that ran waits ahead of its queue at its superstep (R383). What
memory, harvest map, page pool and registers hold after the loss of power, the parts of a launch on other packages, and the image's
version and times, which pages are a domain's and when the image is consumed, the abort of a final vote, that a drain does not wait for
frames that have not been sent, COMMIT frames among them, and loses them, and that traffic to a package without power is lost as at a lost
port are the model's choices (log entries 1, 11, 12, 47, 51, 62, 77, 86 and 98). -/
def Obligations.PowerFailureAndDrain : Prop :=
  ∀ (s : State) (p d : Nat) (v : Word), p < 192 → d < 4 →
    let x := s.pkg p
    (x.drain = .none → ∃ t, exec (.pfail p) s = .next t ∧ (t.pkg p).drain = .asserted ∧
      (∀ l tl i, t.tilePkg l tl = p → t.canIssue (.thread l tl i) = false) ∧ (∀ h, t.canIssue (.handler p h) = false) ∧
      exec (.pwrstep p v) t = .next t) ∧
    (x.drain = .none → (s.launches.map (·.1)).Nodup → ∃ t, exec (.pfail p) s = .next t ∧ ∀ l z, Tab.find s.launches l = some z → p ∈ z.pkgs →
      (let y := s.lpkg l p
       let u := t.lpkg l p
       (openOn s l p → y.causes = [] → y.aborts ≤ z.desc.limit →
         (soleLp z p y → u.phase = .stage ∧ u.sstep = y.sstep ∧ u.reexec = y.reexec + 1 ∧ u.aborts = y.aborts ∧ u.parkReq = true ∧ (t.launch l).pends = []) ∧
         (1 < z.pkgs.length → (z.desc.replay = false ∨ (∃ e ∈ z.lp, e.1 ≠ p ∧ e.2.phase ≠ .aborting) →
             ∃ f ∈ (t.pkg p).tx, ∃ o, f.pay = .vote l y.sstep y.reexec o ∧ o.abort = true ∧ o.cause = 0x48) ∧
           ((∃ e ∈ z.lp, e.1 ≠ p ∧ e.2.phase ≠ .aborting) → u.phase = .aborting ∧ 0x48 ∈ u.causes))) ∧
       (¬openOn s l p → y.phase = .sent → u = { y with causes := y.causes ++ [0x48] } ∧
         ∃ f ∈ (t.pkg p).tx, ∃ o, f.pay = .vote l y.sstep y.reexec o ∧ o.abort = true) ∧
       (y.phase ∈ [Phase.committed, .paused, .parking, .held, .parked, .waitSpare] → u = y ∧ (t.launch l).pends = z.pends ∧
         ∀ f, f.ofLaunch l = true → (f ∈ (t.pkg p).tx ↔ f ∈ (s.pkg p).tx)))) ∧
    (x.drain = .asserted → (∃ e ∈ s.launches, p ∈ e.2.pkgs ∧ e.2.unsettled = true) → exec (.drainStart p) s = .next s) ∧
    (x.drain = .asserted → (∀ e ∈ s.launches, p ∈ e.2.pkgs → e.2.unsettled = false) → ∃ t i, exec (.drainStart p) s = .next t ∧ { t with pkgs := s.pkgs, free := s.free } = s ∧ (∀ q, q ≠ p → t.pkg q = s.pkg q) ∧
      t.pkg p = { x with drain := .draining, image := some i } ∧ i.valid = false ∧ i.pkg = p ∧ i.visit = s.star.visit ∧
      i.sizes[2]? = some (0x1F7000 * i.tiles.length) ∧ i.sizes[3]? = some (65536 * i.pages.length) ∧
      i.pages = x.power.dirty.map (fun n => (n, x.hbm.extract (n * 65536) 65536)) ∧ i.regions = x.regions ∧ (∀ e, e < 4 → Tab.get i.doms Dom.zero e = x.dom e) ∧
      ∀ l y, Tab.find s.launches l = some y → (p ∈ y.pkgs ∨ y.pkg = p) →
        (∃ z, Tab.find i.launches l = some z ∧ z.id = y.id ∧ z.desc = y.desc ∧ z.pends = [] ∧
          ∀ q, (y.onPkg q).phase = .aborting → (z.onPkg q).reexec = (y.onPkg q).reexec + 1) ∧
        let ran := (s.lpkg l p).phase ∈ [Phase.stage, .compute, .closing, .voted, .sent, .aborting, .committed, .paused, .parking, .held, .dark]
        (∀ tl, tl < y.desc.ntile → s.tilePkg l tl = p → let w := s.tile l tl
          (ran → w.parked = false ∨ Tab.find s.tiles (l, tl) ≠ none → ∃ z, Tab.find i.tiles (l, tl) = some z ∧
            z.tm = w.tm ∧ z.own = w.own ∧ z.ownCur = w.own ∧ z.acc = [] ∧ (w.parked = false → z.cmps = s.cmp p w.phys)) ∧
          (¬ran → Tab.find i.tiles (l, tl) = none ∧ (Tab.find s.tiles (l, tl) ≠ none →
            ∃ z, Tab.find i.records (l, tl) = some z ∧ z.retired = w.retired ∧ z.altSave = w.altSave ∧ z.weight = w.weight ∧ z.tm = []))) ∧
        ∀ tl n k, ran → s.tilePkg l tl = p → Tab.find s.tasks (.thread l tl n) = some k → k.status ≠ .retired →
          ∃ z, Tab.find i.tasks (.thread l tl n) = some z ∧ z.bank = k.kept ∧ z.status = .running) ∧
    (x.drain = .draining → ∃ t, exec (.drainEnd p) s = .next t ∧
      let cut := fun l q => q ≠ p ∧ s.awaits l q p = true
      ((∀ e ∈ s.launches, ∀ q ∈ e.2.pkgs, ¬cut e.1 q) → ∀ q, q ≠ p → t.pkg q = s.pkg q) ∧
      (∀ k, k ∈ t.fabric ↔ k ∈ s.fabric ∧ k.src ≠ p ∧ (k.dst = p → k.st = .held)) ∧
      (∀ l z k, Tab.find s.launches l = some z → k ∈ s.fabric → k.launch = l → k.src ∈ z.pkgs → k.src ≠ p → k.dst = p → k.st ≠ .held →
        (openOn s l k.src → 0x42 ∈ (t.lpkg l k.src).causes) ∧ ((s.lpkg l k.src).phase = .aborting → k.src ∈ (t.launch l).waitPaths)) ∧
      t.pkg p = { Pkg.zero with drain := if x.power.back = true then .none else .off, failed := x.failed, fuses := x.fuses, harvest := x.fuses.tiles,
                                image := x.image.map fun i => { i with valid := true } } ∧
      (∀ e ∈ t.launches, e.2.pkgs ≠ [p] ∧ ((∀ c ∈ s.launches, c.1 = e.1 → ∀ q ∈ c.2.pkgs, ¬cut e.1 q) →
        ∃ z, (e.1, z) ∈ s.launches ∧ { e.2 with lp := z.lp } = z ∧ ∀ q, q ≠ p → e.2.onPkg q = z.onPkg q)) ∧
      ∀ h, t.handler p h = Handler.zero) ∧
    (x.drain = .none → exec (.powerReturn p) s = .next s) ∧
    (x.drain = .asserted ∨ x.drain = .draining → PkgBecomes (.powerReturn p) s p { x with power := { x.power with back := true } }) ∧
    (x.drain = .off → ∃ t, exec (.powerReturn p) s = .next t ∧ (t.pkg p).drain = .none ∧ (t.pkg p).boot = Pkg.zero.boot ∧ (t.pkg p).boot.step = 1 ∧
      (t.pkg p).fuses = x.fuses ∧ (t.pkg p).image = x.image.filter fun i => i.valid) ∧
    (v.getLsbD 0 = false ∨ x.image = none ∨ (x.dom d).restore = false → exec (.rstgo p d v) s = .next s) ∧
    ∀ i, v.getLsbD 0 = true → x.image = some i → (x.dom d).restore = true → ∃ t, exec (.rstgo p d v) s = .next t ∧ ((t.pkg p).dom d).restore = false ∧
      (∀ e, e < 4 → e ≠ d → ((t.pkg p).dom e).restore = (x.dom e).restore) ∧
      (t.pkg p).image = (if ∃ e ∈ List.range 4, e ≠ d ∧ (x.dom e).restore = true then some i else none) ∧
      (i.launches = [] → { t with pkgs := s.pkgs } = s ∧ ∀ a, Memory.get (t.pkg p).hbm a =
        match i.pages.reverse.find? (fun g => x.pageOfDom d g.1 && g.1 == a / 65536) with
        | some g => Memory.get g.2 (a % 65536)
        | none => Memory.get x.hbm a) ∧
      ∀ l y z, i.launches = [(l, y)] → y.dom = d → (s.launch l).dom = d → soleLp (s.launch l) p z → z.phase = .dark → (∀ e ∈ i.tiles, e.1.1 = l → e.2.retired = true) →
        (t.lpkg l p).phase = .parked ∧ (t.lpkg l p).sstep = (y.onPkg p).sstep ∧ (t.lpkg l p).reexec = (y.onPkg p).reexec ∧
          l ∈ (((t.pkg (s.launch l).pkg).dom d).queue (s.launch l).desc.prio).ahead

/-! ### The fabric -/

/-- A lane's life: a sub-window ends and joins the last 256; at THR an active lane is withdrawn when the port can spare it, locks and
rejoins with its estimate at 0, waits after an attempt that did not lock, and fails after the third; CLRFAIL returns failed lanes to
retraining (R331–R334).
Flits and ports: a flit's 8 beats go on the active lanes by rank, the first on that of the stream's next beat; its corrected symbols
count in CORRSYM and in the sub-window of the lane that carried them, its uncorrectable codewords in UNCORR; a flit with one is
replayed, and the 16th replay of one flit loses the port (R329–R331). A lost port drops the packets in flight through it, sent or about to
arrive there, and each package of a launch that had one, or a read, votes 0x42, or in ABORT waits for new paths (R338, R390). Firmware's
path table entries stand, but those through a lost port are invalid, a lost port of the destination included; re-runs that waited for this
package go on; a destination left with no path is a failed package (R335, R338, R352). The port at which a path ends is a free value (log
entry 54). -/
def Obligations.LanesFlitsAndPorts : Prop :=
  (∀ (s : State) (p port n k : Nat), p < 192 → port < 28 → n < 64 →
    let y := (s.pkg p).port port
    let v := y.lane n
    (y.lost = false → v.mode = .active → ∃ t, exec (.subWindowEnd p port n) s = .next t ∧
      ∃ e, LaneBecomes s t p port n y { mode := .active, now := 0, wins := (v.now :: v.wins).take 256, episode := e } ∧
        (((v.now :: v.wins).take 256).foldl (· + ·) 0 < y.thr.toNat → e = false ∧ OnlyPkg p s t) ∧
        (y.thr.toNat ≤ ((v.now :: v.wins).take 256).foldl (· + ·) 0 → y.actives ≤ y.minlanes.toNat ∨ 8 ≤ y.retraining → e = true) ∧
        (y.minlanes.toNat < y.actives → y.retraining < 8 → y.thr.toNat ≤ ((v.now :: v.wins).take 256).foldl (· + ·) 0 → e = v.episode ∧ OnlyPkg p s t)) ∧
    (y.lost = false → v.mode = .active → y.thr.toNat ≤ v.wins.foldl (· + ·) 0 → y.minlanes.toNat < y.actives → y.retraining < 8 →
      ∃ t, exec (.laneWithdrawal p port n) s = .next t ∧ OnlyPkg p s t ∧
        LaneBecomes s t p port n { y with count := y.count + 1, last := BitVec.ofNat 6 n, lv := true } { v with mode := .locking 1, episode := false }) ∧
    (y.lost = true ∨ v.mode ≠ .active ∨ v.wins.foldl (· + ·) 0 < y.thr.toNat ∨ y.actives ≤ y.minlanes.toNat ∨ 8 ≤ y.retraining →
      exec (.laneWithdrawal p port n) s = .next s) ∧
    (v.mode = .locking k →
      (∃ t, exec (.laneRejoin p port n) s = .next t ∧ OnlyPkg p s t ∧ LaneBecomes s t p port n y { mode := .active, now := 0, wins := [], episode := false }) ∧
      (k < 3 → ∃ t, exec (.lockAttemptTimeout p port n) s = .next t ∧ OnlyPkg p s t ∧ LaneBecomes s t p port n y { v with mode := .waiting k }) ∧
      (3 ≤ k → ∃ t, exec (.lockAttemptTimeout p port n) s = .next t ∧ LaneBecomes s t p port n y { v with mode := .failed })) ∧
    (v.mode = .waiting k → ∃ t, exec (.retryWaitEnd p port n) s = .next t ∧ OnlyPkg p s t ∧ LaneBecomes s t p port n y { v with mode := .locking (k + 1) }) ∧
    ∃ t, exec (.clrfail p port) s = .next t ∧ OnlyPkg p s t ∧ { (t.pkg p).port port with lanes := y.lanes } = y ∧
      ∀ m, m < 64 → ((t.pkg p).port port).lane m = if (y.lane m).mode = .failed then { y.lane m with mode := .locking 1 } else y.lane m) ∧
  (∀ (s : State) (p port n : Nat) (cs : List Nat) (bad : List Bool) (es : List (Nat × BitVec 64)), p < 192 → port < 28 → cs.length = 8 → bad.length = 8 →
    let y := (s.pkg p).port port
    let A := (List.range 64).filter fun m => (y.lane m).mode = .active
    let via := fun (b d : Nat) (w : BitVec 64) => (b = p ∧ pathPort w = port) ∨ (d = p ∧ Config.lastPort d w % 28 = port)
    (y.lost = true ∨ A = [] ∨ n ≠ y.beat → exec (.flit p port n cs bad) s = .next s) ∧
    (y.lost = false → A ≠ [] → n = y.beat → ∃ t, exec (.flit p port n cs bad) s = .next t ∧
      let z := (t.pkg p).port port
      z.corrsym = y.corrsym + BitVec.ofNat 48 cs.sum ∧ z.uncorr = y.uncorr + BitVec.ofNat 48 (bad.count true) ∧ z.beat = y.beat + 8 ∧
      z.replays = (if true ∈ bad then y.replays + 1 else 0) ∧ z.lost = decide (16 ≤ z.replays) ∧
      (∀ m, m < 64 → z.lane m =
        { y.lane m with now := (y.lane m).now + (((List.range 8).filter fun b => A[(y.beat + b) % A.length]? = some m).map fun b => cs.getD b 0).sum }) ∧
      (z.replays < 16 → OnlyPkg p s t ∧ { t.pkg p with ports := (s.pkg p).ports } = s.pkg p ∧ (∀ q, q ≠ port → (t.pkg p).port q = (s.pkg p).port q) ∧
        { z with lanes := y.lanes, corrsym := y.corrsym, uncorr := y.uncorr, beat := y.beat, replays := y.replays } = y)) ∧
    (∃ t, exec (.portLost p port) s = .next t ∧ ((t.pkg p).port port).lost = true ∧ (∀ q, q ≠ port → (t.pkg p).port q = (s.pkg p).port q) ∧
      (∀ q, q ∈ t.fabric ↔ q ∈ s.fabric ∧ ¬(q.st = .inFlight ∧ via q.src q.dst q.path)) ∧
      ∀ l x b, Tab.find s.launches l = some x → b ∈ x.pkgs →
        (∃ q ∈ s.fabric, q.launch = l ∧ q.src = b ∧ q.st = .inFlight ∧ via b q.dst q.path) ∨
          (∃ va ∈ s.awaited l b, ∃ d ra w, s.remoteOf l b va = some (d, ra, true) ∧ s.route b d ra = some w ∧ via b d w) →
        (openOn s l b → 0x42 ∈ (t.lpkg l b).causes) ∧ ((s.lpkg l b).phase = .aborting → b ∈ (t.launch l).waitPaths)) ∧
    ((∀ e ∈ es, e.1 < 768) → (es.map (·.1)).Nodup → ∃ t, exec (.pathTableRewrite p es) s = .next t ∧
      (∀ e ∈ es, Tab.get (t.pkg p).paths 0 e.1 = if ((s.pkg p).port (bits e.2.toNat 42 6)).lost = true ∨
          ((s.pkg (e.1 / 4)).port (Config.lastPort (e.1 / 4) e.2 % 28)).lost = true then e.2 &&& ~~~(1#64 <<< 48) else e.2) ∧
      let known := fun d => (∃ x, (d, x) ∈ s.pkgs) ∧ d ≠ p ∧ (s.pkg d).failed = false ∧ ∃ j, j < 4 ∧ (Tab.get (s.pkg p).paths 0 (4 * d + j)).getLsbD 48 = true
      (∀ d, known d → t.pathsTo p d = [] → (t.pkg d).failed = true) ∧
      ((∀ d, known d → t.pathsTo p d ≠ []) →
        (∀ l, (t.launch l).waitPaths = (s.launch l).waitPaths.filter (· ≠ p)) ∧ t.tasks = s.tasks ∧ t.tiles = s.tiles ∧ t.fabric = s.fabric)))

/-- A packet whose turn it is is received: the destination holds its effects, and a cause they bring refuses it, which the package
votes itself when its vote is open; otherwise the sender learns of the refusal and votes the cause, and of an acknowledgement
that the packet is gone; where ABORT has begun it is received, and its effects and their causes are dropped. An earlier packet with the same routing address holds it back while it is in flight, and on another path
until it is answered (R337, R339, R389). A GFAA request is served at the counter's home, and its task has the counter's old value
(R247, R340). What a package holds until CLOSING, writes to pages homed elsewhere and broadcast writes, does not arrive (R64, R75, R340). That
nothing arrives at a package which drains, has no power or has not restored the launch's domain is the model's choice (log entry 98). -/
def Obligations.PacketsArrive : Prop :=
  ∀ (s : State) (k : Nat) (q : Packet), s.fabric[k]? = some q →
    (q.st = .inFlight →
      let held := ∃ j r, j < k ∧ s.fabric[j]? = some r ∧ r.src = q.src ∧ r.dst = q.dst ∧ r.ra = q.ra ∧ r.st ≠ .held ∧ (r.path ≠ q.path ∨ r.st = .inFlight)
      let answers := ((s.pkg q.dst).drain = .none ∨ (s.pkg q.dst).drain = .asserted) ∧ (s.pkg q.dst).hosts (s.launch q.launch).dom = true ∧
        ((s.pkg q.dst).dom (s.launch q.launch).dom).restore = false
      (held ∨ ¬answers → exec (.packetReceive k) s = .next s) ∧
      (¬held → answers →
        (let gone := q.dst ∈ (s.launch q.launch).pkgs ∧ (s.lpkg q.launch q.dst).phase = .aborting
         (q.gfaa = none → gone → ∃ t, exec (.packetReceive k) s = .next t ∧ { t with fabric := s.fabric } = s ∧ t.fabric = s.fabric.set k { q with st := .received }) ∧
         (q.gfaa = none → ¬gone → ∃ t, exec (.packetReceive k) s = .next t ∧ (t.launch q.launch).pends = (s.launch q.launch).pends ++ q.pends ∧
          match (s.arriveAll q).2 with
          | none => t.fabric = s.fabric.set k { q with st := .received }
          | some c => let votes := q.dst ∈ (s.launch q.launch).pkgs ∧ openOn s q.launch q.dst
              (votes → t.fabric = s.fabric.eraseIdx k ∧ c ∈ (t.lpkg q.launch q.dst).causes) ∧
              (¬votes → t.fabric = s.fabric.set k { q with st := .refused c }))) ∧
        ∀ g, q.gfaa = some g →
          let old := (s.pkg q.dst).hbm.nat g.addr 8
          ∃ t, exec (.packetReceive k) s = .next t ∧ t.fabric = s.fabric.set k { q with st := .received } ∧
            (∀ e ∈ (s.task g.slot).pend, e.src = .gfaa g.id → { e with src := .value (BitVec.ofNat 2048 old) } ∈ (t.task g.slot).pend) ∧
            (∀ e ∈ (t.task g.slot).pend, e.src ≠ .gfaa g.id) ∧
            (quiet s q.dst (g.addr / 65536) → (t.pkg q.dst).hbm.nat g.addr 8 = (old + g.add.toNat) % 2 ^ 64 ∧
              ∀ b, b < g.addr ∨ g.addr + 8 ≤ b → Memory.get (t.pkg q.dst).hbm b = Memory.get (s.pkg q.dst).hbm b))) ∧
    (q.st ≠ .inFlight → exec (.packetReceive k) s = .next s) ∧
    (q.st = .received → ∃ t, exec (.packetAck k) s = .next t ∧ t = { s with fabric := s.fabric.eraseIdx k }) ∧
    (∀ c, q.st = .refused c → ∃ t, exec (.packetRefusal k) s = .next t ∧ t.fabric = s.fabric.eraseIdx k ∧
      ((s.lpkg q.launch q.src).phase ≠ .voted → (s.lpkg q.launch q.src).phase ≠ .sent → t.pkgs = s.pkgs) ∧
      (openOn s q.launch q.src → c ∈ (t.lpkg q.launch q.src).causes)) ∧
    (q.st ≠ .received → exec (.packetAck k) s = .next s) ∧ ((∀ c, q.st ≠ .refused c) → exec (.packetRefusal k) s = .next s)

/-! ### The broadcast plane -/

/-- A visit: the pawn moves on to its entry and the visit number by one, a new schedule taking effect at its visit. A member that takes part
sends a repeat that is due, or the frame of the entry's domain that became ready first, or a PAWN frame with any schedule that firmware
announces; the frame carries its visit and the sender's ACK, every member that takes part receives it, and frames held back become ready
when they may be sent; a launch whose broadcast writes are sent is not restarted any more (R308). A missed frame keeps its place until a repeat brings it; a member that still lacks one four rounds on is failed
(R75, R308, R344–R348, R357). -/
def Obligations.VisitsSendFrames : Prop :=
  (∀ (s : State), ∃ t, exec .visit s = .next t ∧
    (∀ n sc, s.star.next = some (n, sc) → n ≤ s.star.visit + 1 → t.star.sched = sc ∧ t.star.next = none ∧ t.star.unused = []) ∧
    ∀ f ∈ s.star.sent, ∀ q ∈ s.star.members, (s.pkg q).failed = false → f.visit + 4 * (s.star.sched.filter entryValid).length ≤ s.star.visit →
      (none, f.visit) ∈ (s.pkg q).rx → s.readAcks.lacking f ≠ [] → (t.pkg q).failed = true) ∧
  (∀ (s : State) (e : BitVec 32), s.star.next = none → s.star.members.Nodup → s.star.sched[s.star.pos]? = some e → entryValid e = true → entryPkg e ∈ s.star.members →
    (∀ x ∈ s.pkgs, ∀ g ∈ x.2.txHeld, ∃ l k es, g.pay = .bcast l k es) →
    let p := entryPkg e
    let x := s.pkg p
    let v := s.star.visit + 1
    let part := fun q => q ∈ s.star.members ∧ (s.pkg q).failed = false
    let apart := fun (t : State) q => { t.pkg q with acks := (s.pkg q).acks, pools := (s.pkg q).pools } = s.pkg q
    (s.star.sent = [] → x.failed = true ∨ p ∈ s.star.unused → ∃ t, exec .visit s = .next t ∧
      { t with pkgs := s.pkgs } = { s with star := { s.star with visit := v, pos := s.star.pos + 1 } } ∧ ∀ q, apart t q) ∧
    (x.failed = false → p ∉ s.star.unused → x.drain = .none →
      (s.star.sent = [] →
        (∀ a f rest, x.tx = a ++ f :: rest → (∀ g ∈ a, g.dom ≠ entryDom e) → f.dom = entryDom e → ∃ t, exec .visit s = .next t ∧
          let f' := { f with visit := v, ack := x.ack }
          { t with pkgs := s.pkgs, launches := s.launches } = { s with star := { s.star with visit := v, pos := s.star.pos + 1, sent := [f'] } } ∧
          (∀ l, (∀ k es, f.pay ≠ .bcast l k es) → t.launch l = s.launch l) ∧
          (∀ l k es, f.pay = .bcast l k es → Tab.find s.launches l ≠ none → t.launch l = { s.launch l with outward := true }) ∧
          (∀ q, part q → (t.pkg q).rx = (s.pkg q).rx ++ [(some f', v)] ∧ (t.pkg q).lastRx = v) ∧ (∀ q, ¬part q → (t.pkg q).rx = (s.pkg q).rx) ∧
          ∀ q, (t.pkg q).tx = (if q = p then a ++ rest else (s.pkg q).tx) ++ (s.pkg q).txHeld.filter t.ready ∧
            (t.pkg q).txHeld = (s.pkg q).txHeld.filter (fun g => !t.ready g)) ∧
        ((∀ g ∈ x.tx, g.dom ≠ entryDom e) → ∃ t f', exec .visit s = .next t ∧ f'.dom = entryDom e ∧ f'.src = p ∧ f'.visit = v ∧ f'.ack = x.ack ∧
          f'.last = true ∧ f'.rpt = false ∧ f'.pay = .pawn x.announce ∧ (t.pkg p).announce = none ∧ (t.pkg p).tx = x.tx ∧
          { t with pkgs := s.pkgs } = { s with star := { s.star with visit := v, pos := s.star.pos + 1, sent := [f'] } } ∧
          (∀ q, part q → (t.pkg q).rx = (s.pkg q).rx ++ [(some f', v)]) ∧ ∀ q, ¬part q → apart t q)) ∧
      ∀ f, s.star.sent = [f] → f.src = p → f.dom = entryDom e → s.readAcks.lacking f ≠ [] →
        f.visit + (s.star.sched.filter entryValid).length ≤ v → v ≤ f.visit + 4 * (s.star.sched.filter entryValid).length →
        ∃ t, exec .visit s = .next t ∧ { t with pkgs := s.pkgs } = { s with star := { s.star with visit := v, pos := s.star.pos + 1 } } ∧ (t.pkg p).tx = x.tx ∧
          ∀ q, part q → (t.pkg q).rx = (s.pkg q).rx.map fun r => if r = (none, f.visit) then (some { f with rpt := true, ack := x.ack }, f.visit) else r)) ∧
  ∀ (s : State) (q : Nat), q < 192 →
    PkgBecomes (.missedFrame q) s q { s.pkg q with rx := (s.pkg q).rx.map fun r => if r.2 = (s.pkg q).lastRx then (none, r.2) else r }

/-- A package processes its frames in pawn order, moves ACK on and learns the sender's, with the acknowledgements of released pages that
come with it: a PAWN frame may bring a new schedule, a BCAST frame
writes the domain's table, a notice ends the old lines of its pages, a COMMIT frame's pages wait for the list's LAST frame, which counts
towards the next STAGE, a commit VOTE frame is noted, its continuations add partials, and an abort VOTE sends the package into ABORT, where no handler serves
a trap of its tasks any more (R68, R73, R75, R79, R299, R344, R346–R350, R356). -/
def Obligations.FramesInPawnOrder : Prop :=
  ∀ (s : State) (p : Nat) (f : Frame) (w : Nat) (r : List (Option Frame × Nat)), p < 192 → noneEnded s → noneWaiting s → (s.pkg p).failed = false →
    (s.pkg p).rx = (some f, w) :: r →
    let known := max (Tab.get (s.pkg p).acks 0 f.src) f.ack
    let heard := Tab.put (s.pkg p).acks f.src known
    let pools := ((s.pkg p).mapPools fun q => q.acked fun n => n.1 == f.src && n.2.any fun v => decide (v ≤ known)).pools
    (∀ sc, f.pay = .pawn sc → ∃ t, exec (.pawnFrame p) s = .next t ∧ t.pkg p = { s.pkg p with rx := r, ack := w, acks := heard, pools := pools } ∧ (∀ q, q ≠ p → t.pkg q = s.pkg q) ∧
      { t with pkgs := s.pkgs, star := s.star } = s ∧ t.star.next = (if sc ≠ none ∧ (s.pkg p).hosts f.dom = true then sc else s.star.next)) ∧
    (∀ l k es, f.pay = .bcast l k es → (es.map (·.1)).Nodup → ∃ t, exec (.bcastFrame p) s = .next t ∧ (t.pkg p).rx = r ∧ (t.pkg p).ack = w ∧ (t.pkg p).acks = heard ∧
      { t with pkgs := s.pkgs, star := s.star } = s ∧ (∀ q, q ≠ p → t.pkg q = s.pkg q) ∧
      ((s.pkg p).hosts f.dom = false → (t.pkg p).doms = (s.pkg p).doms) ∧
      ((s.pkg p).hosts f.dom = true → (∀ e ∈ es, Tab.get ((t.pkg p).dom f.dom).bt 0 e.1 = e.2) ∧
        ∀ n, n ∉ es.map (·.1) → Tab.get ((t.pkg p).dom f.dom).bt 0 n = Tab.get ((s.pkg p).dom f.dom).bt 0 n)) ∧
    (∀ pages, f.pay = .notice pages → ∃ t, exec (.commitFrame p) s = .next t ∧ (t.pkg p).rx = r ∧ (t.pkg p).ack = w ∧ (t.pkg p).hbm = (s.pkg p).hbm ∧
      ∀ e, e ∈ (t.pkg p).stale ↔ e ∈ (s.pkg p).stale ∧ ¬(e.1 = f.src ∧ ∃ g ∈ pages, g.2 = e.2.1 / 1024)) ∧
    (∀ l k pages, f.pay = .commit l k pages → f.last = false → ∃ t, exec (.commitFrame p) s = .next t ∧ { t with pkgs := s.pkgs, star := s.star } = s ∧
      t.pkg p = { s.pkg p with rx := r, ack := w, acks := heard, pools := pools, listing := Tab.put (s.pkg p).listing (f.src, l, k) (Tab.get (s.pkg p).listing [] (f.src, l, k) ++ pages) } ∧ ∀ q, q ≠ p → t.pkg q = s.pkg q) ∧
    (∀ l k, f.pay = .commit l k [] → f.last = true → Tab.get (s.pkg p).listing [] (f.src, l, k) = [] → p ∈ (s.launch l).pkgs → (s.lpkg l p).phase = .committed →
      (s.lpkg l p).sstep = k + 1 →
      ∃ t, exec (.commitFrame p) s = .next t ∧ (t.pkg p).rx = r ∧ (t.pkg p).ack = w ∧ t.tasks = s.tasks ∧ t.tiles = s.tiles ∧
        (let ns := (s.lpkg l p).notices ++ [f.src]
         (t.lpkg l p).notices = ns ∧
          ((∀ q ∈ (s.launch l).pkgs, q ∈ ns) → (t.lpkg l p).phase = if (s.launch l).ckpt = true then .paused else .stage) ∧
          (1 < (s.launch l).pkgs.length → (∃ q ∈ (s.launch l).pkgs, q ∉ ns) → (t.lpkg l p).phase = .committed))) ∧
    let takes := fun l k n => p ∈ (s.launch l).pkgs ∧ (s.lpkg l p).phase ∈ [Phase.stage, .compute, .closing, .voted, .sent] ∧ (s.lpkg l p).sstep = k ∧ (s.lpkg l p).reexec = n
    let more := fun l => ∃ q ∈ (s.launch l).pkgs, q ∉ (s.lpkg l p).lasts ∧ ¬(f.last = true ∧ q = f.src)
    (∀ l k n v, f.pay = .vote l k n v → takes l k n →
      (v.abort = true → (∃ e ∈ (s.launch l).lp, e.1 ≠ p ∧ e.2.phase ≠ .aborting) → ∃ t, exec (.voteFrame p) s = .next t ∧ (t.pkg p).rx = r ∧
        (t.lpkg l p).phase = .aborting ∧ t.tiles = s.tiles ∧ (∀ m tl i, t.task (.thread m tl i) = s.task (.thread m tl i)) ∧
        ∀ b h tl i alt, (t.handler b h).serving = some (.thread l tl i, alt) → s.tilePkg l tl ≠ p) ∧
      (v.abort = false → more l → ∃ t, exec (.voteFrame p) s = .next t ∧
        (t.pkg p).rx = r ∧ (t.lpkg l p).phase = (s.lpkg l p).phase ∧ t.tasks = s.tasks ∧ t.tiles = s.tiles ∧
        (f.last = true → f.src ∈ (t.lpkg l p).lasts) ∧ Tab.find (t.lpkg l p).seen f.src = some v)) ∧
    ∀ l k n ps u, f.pay = .voteMore l k n ps → takes l k n → Tab.find (s.lpkg l p).seen f.src = some u → more l → ∃ t, exec (.voteFrame p) s = .next t ∧
      (t.pkg p).rx = r ∧ (t.lpkg l p).phase = (s.lpkg l p).phase ∧ t.tasks = s.tasks ∧ t.tiles = s.tiles ∧
      (f.last = true → f.src ∈ (t.lpkg l p).lasts) ∧ Tab.find (t.lpkg l p).seen f.src = some { u with partials := u.partials ++ ps }

/-- A failed package takes no further part: its frames of this visit on are gone, with every list of flipped pages that they cut off, its
entries pass unused, and nobody waits for its acknowledgements; every multi-package launch that ran or was parking on it stops, restored to the start of its superstep, and waits for
a spare (R352, R357). A spare takes the failed package's number, with its hardware and the failed package's tables and queues, and is
itself no more; firmware announces a schedule; a waiting launch that lost a page for good ends with 0x80 once none of its packages is
failed and the frames of its stopped run are processed (R353). That the failed
package's memory comes over as it stood, and what missed frames and the schedule become, are the model's choices (log entries 48, 60, 69). -/
def Obligations.FailuresAndSpares : Prop :=
  (∀ (s : State) (p : Nat), p < 192 → noneEnded s → (∀ e ∈ s.launches, e.2.split = false) → ∃ t, exec (.packageFailed p) s = .next t ∧ (t.pkg p).failed = true ∧ (t.pkg p).tx = [] ∧
    p ∈ t.star.unused ∧ (∀ f ∈ t.star.sent, f.src ≠ p) ∧
    (∀ e ∈ t.pkgs, ∀ r ∈ e.2.rx, ∀ f, r.1 = some f → f.src = p → f.visit < s.star.visit) ∧
    (∀ l x, Tab.find s.launches l = some x → p ∈ x.pkgs → 1 < x.pkgs.length →
      (∃ y ∈ x.lp, y.2.phase.runs = true ∨ y.2.phase = .parking ∨ y.2.phase = .held) →
      (∀ q y, Tab.find (t.launch l).lp q = some y → y.phase = .waitSpare ∧ y.causes = []) ∧ (t.launch l).pends = [] ∧
      ∀ tl i, ((s.task (.thread l tl i)).status ≠ .retired → (t.task (.thread l tl i)).bank = (s.task (.thread l tl i)).kept) ∧
        t.tmByte l tl = s.tmByte l tl) ∧
    (∀ e ∈ t.pkgs, ∀ c ∈ e.2.listing, c.1.1 = p → ∃ r ∈ e.2.rx, ∃ f pages, r.1 = some f ∧ f.src = p ∧ f.last = true ∧ f.pay = .commit c.1.2.1 c.1.2.2 pages) ∧
    (∀ e ∈ t.pkgs, ∀ d, ∀ m ∈ (e.2.pool d).releasing, ∀ n ∈ m.waiting, n.1 ≠ p) ∧
    ∀ q, q ≠ p → ∀ g ∈ (s.pkg q).tx ++ (s.pkg q).txHeld, ((∃ l k pages, g.pay = .commit l k pages) ∨ ∃ l k es, g.pay = .bcast l k es) →
      g ∈ (t.pkg q).tx ++ (t.pkg q).txHeld) ∧
  ∀ (s : State) (f sp : Nat) (lost : List Nat) (sc : Option (Nat × List (BitVec 32))), f < 192 → sp < 192 → f ≠ sp →
    let i := Instr.spareTakeover f { pkg := sp, lost := lost, sched := sc }
    ((s.pkg f).failed = false ∨ (s.pkg sp).spare = false → exec i s = .next s) ∧
    ((s.pkg f).failed = true → (s.pkg sp).spare = true → lost = [] → (∀ e ∈ s.launches, f ∈ e.2.pkgs → e.2.lp ≠ [] → ∃ y ∈ e.2.lp, y.2.phase ≠ .waitSpare) →
      ∃ t, exec i s = .next t ∧ { t with pkgs := s.pkgs, star := s.star } = s ∧
        t.star = { s.star with members := s.star.members.filter (fun q => q != sp) } ∧ t.pkg sp = Pkg.zero ∧
        (t.pkg f).harvest = (s.pkg sp).harvest ∧ (t.pkg f).fuses = (s.pkg sp).fuses ∧ (t.pkg f).ports = (s.pkg sp).ports ∧ (t.pkg f).paths = (s.pkg sp).paths ∧
        (t.pkg f).hbm = (s.pkg f).hbm ∧ (t.pkg f).failed = false ∧ (t.pkg f).drain = .none ∧
        (∀ d q, ((t.pkg f).dom d).queue q = ((s.pkg f).dom d).queue q ∧ ((t.pkg f).dom d).done = ((s.pkg f).dom d).done ∧
          ((t.pkg f).dom d).bt = ((s.pkg sp).dom d).bt) ∧ (∀ q, q ≠ f → q ≠ sp → { t.pkg q with announce := (s.pkg q).announce } = s.pkg q) ∧
        ((∃ q ∈ s.star.members, q ≠ f ∧ q ≠ sp ∧ (s.pkg q).failed = false) → ∃ q ∈ t.star.members, q ≠ f ∧ (t.pkg q).announce =
          some ((sc.map fun e => (e.1, (e.2.take 1024).map fun w => w &&& 0x7FF)).getD (s.star.visit + 8 * (s.star.sched.filter entryValid).length, s.star.sched)))) ∧
    ∀ l x, (s.pkg f).failed = true → (s.pkg sp).spare = true → (s.pkg sp).rx = [] → s.launches = [(l, x)] → f ∈ x.pkgs → x.lp ≠ [] →
      (∀ y ∈ x.lp, y.2.phase = .waitSpare) → x.fault = none → l ∈ lost →
      ((∃ q ∈ x.pkgs, q ≠ f ∧ q ≠ sp ∧ (s.pkg q).failed = true) ∨ (∃ e ∈ s.pkgs, e.1 ≠ f ∧ e.1 ≠ sp ∧ e.2.failed = false ∧
          ((∃ g ∈ e.2.tx ++ e.2.txHeld, g.ofLaunch l = true) ∨ ∃ r ∈ e.2.rx, r.1 = none ∨ ∃ g, r.1 = some g ∧ g.ofLaunch l = true)) → ∃ t, exec i s = .next t ∧ t.launch l = { x with fault := some 0x80 } ∧
        t.tasks = s.tasks ∧ t.tiles = s.tiles) ∧
      ((∀ q ∈ x.pkgs, q ≠ f → q ≠ sp ∧ (s.pkg q).failed = false) → x.split = false → x.desc.replay = false → x.holdTiles = false → noFrames s l →
        ∃ t, exec i s = .next t ∧ Tab.find t.launches l = none ∧ ((t.pkg x.pkg).dom x.dom).done.head? = some (x.id, 0x80))

/-! ### The host -/

/-- The registers of a domain page and ATTGO: a push to a full queue counts in REFUSED, one whose descriptor cannot be used in BADVA, a
descriptor with a status of R11 completes with it, a valid one enters at the tail; WBSEL moves the aperture; EVTAIL is clamped; the
attestation report ends with vector 33, and one whose address has no translation is not written (R11, R34, R360, R361, R363, R364,
R370). That the report's address is translated for the domain that the aperture serves is the model's choice (log entry 21). -/
def Obligations.DomainPageEvents : Prop :=
  ∀ (s : State) (p d q : Nat) (v : Word), p < 192 → d < 4 → q < 8 →
    let x := s.pkg p
    let y := x.dom d
    (x.boot.step < 8 ∨ y.configured = false → exec (.qpush p d q v) s = .next s) ∧
    (8 ≤ x.boot.step → y.configured = true →
      (64 ≤ (y.queue q).entries.length + (y.queue q).reserved → ∃ t, exec (.qpush p d q v) s = .next t ∧ OnlyPkg p s t ∧
        ((t.pkg p).dom d).queue q = { y.queue q with refused := (y.queue q).refused + 1 }) ∧
      ((y.queue q).entries.length + (y.queue q).reserved < 64 → s.descUsable p d v.toNat = false → ∃ t, exec (.qpush p d q v) s = .next t ∧
        ((t.pkg p).dom d).queue q = { y.queue q with badva := (y.queue q).badva + 1 } ∧ t.launches = s.launches ∧ t.tasks = s.tasks) ∧
      ((y.queue q).entries.length + (y.queue q).reserved < 64 → s.descUsable p d v.toNat = true →
        let desc := descOf (s.directRead p d v.toNat 256)
        (∀ st, s.validate p d q desc true = some st → ∃ t, exec (.qpush p d q v) s = .next t ∧ t.launches = s.launches ∧ t.tasks = s.tasks ∧
          ((t.pkg p).dom d).queue q = y.queue q ∧ (t.pkg p).msix = x.msix ++ [8 * d + q] ∧
          ((t.pkg p).dom d).done = if st = 0x98 then y.done else ((desc.id, st) :: y.done).take 4096) ∧
        (s.validate p d q desc true = none → ∃ t n, exec (.qpush p d q v) s = .next t ∧ t.tasks = s.tasks ∧
          ((t.pkg p).dom d).queue q = { y.queue q with entries := (y.queue q).entries ++ [n] } ∧ (t.launch n).desc = desc ∧ (t.launch n).id = desc.id ∧
          (t.launch n).va = v ∧ (t.launch n).lp = [] ∧ ∀ m, m ≠ n → t.launch m = s.launch m))) ∧
    (∃ t, exec (.wbsel p d v) s = .next t ∧ OnlyPkg p s t ∧ t.pkg p = { x.setDom d { y with wbsel := v } with wbdom := d }) ∧
    PkgBecomes (.evtail p d v) s p (x.setDom d { y with evtail := min y.evhead (max (y.evhead - 4096) v.toNat) }) ∧
    PkgBecomes (.attgo p v) s p { x with attPend := some v } ∧
    (x.attPend = none → exec (.attestationReport p) s = .next s) ∧
    ∀ a, x.attPend = some a →
      let there := fun j => (s.xlateDom p x.wbdom (a.toNat + j)).isSome = true
      ((∀ j, j < (s.report p).length → there j) → ∃ t, exec (.attestationReport p) s = .next t ∧ (t.pkg p).attPend = none ∧
        (t.pkg p).msix = x.msix ++ [33] ∧ t.launches = s.launches ∧ t.tasks = s.tasks ∧ t.tiles = s.tiles) ∧
      ((∃ j, j < (s.report p).length ∧ ¬there j) → PkgBecomes (.attestationReport p) s p { x with attPend := none })

/-- A naturally aligned 8-byte write of window A is the event of the register it names, a read-only register keeps its value, and TRK, THR,
LEVEL, the lane limits, DRAINBUD and DRAINCAP take writes of the secure world only; they, the nonce, the PWREVT bits written 1, which clear,
and the debug mirror of a tile whose domain is in DEBUG mode, which is closed for any other tile, then read as written, and no other register
changes (R300, R331, R358–R360, R367, R372, R375, R386). Any other
size, wider ones too, or alignment changes no register, and as a read returns all ones (R358). That a write of 0 leaves THR, LEVEL and MINLANES as they were, and that those
registers read 0 to the host, are the model's choices (log entries 45 and 63). -/
def Obligations.RegisterWrites : Prop :=
  ∀ (s : State) (p d q n port : Nat) (v : Word) (secure : Bool), p < 192 → d < 4 → q < 8 → n < 16 → port < 28 →
    let w := fun off => exec (.registerWrite p off 8 v secure) s
    w (0x10000 * (d + 1) + 16 * q) = exec (.qpush p d q v) s ∧ w (0x10000 * (d + 1) + 0x100) = exec (.wbsel p d v) s ∧
    w (0x10000 * (d + 1) + 0x110) = exec (.evtail p d v) s ∧ w (0x10000 * (d + 1) + 0x120) = exec (.rstgo p d v) s ∧
    w 0x120 = exec (.attgo p v) s ∧ w 0x200000 = exec (.pwrstep p v) s ∧
    w 0x200030 = (match v.toNat % 4 with
      | 1 => exec (.pbcmdStart p) s
      | 2 => exec (.pbcmdCommit p) s
      | 3 => exec (.pbcmdAbandon p) s
      | _ => .next s) ∧
    w (0x100020 + 64 * port) = (if v.getLsbD 63 = true then exec (.clrfail p port) s else .next s) ∧
    (∀ off ∈ [0x000, 0x008, 0x010, 0x200008, 0x200010, 0x200028, 0x10000 * (d + 1) + 16 * q + 8, 0x100000 + 64 * port, 0x100008 + 64 * port, 0x100010 + 64 * port],
      w off = .next s) ∧
    (secure = false → ∀ off ∈ [0x1000 + 64 * n, 0x1008 + 64 * n, 0x1010 + 64 * n, 0x100018 + 64 * port, 0x200018, 0x200020], w off = .next s) ∧
    (let reads := fun (t : State) off new => t.windowA p off true = new ∧ ∀ o, o % 8 = 0 → o ≠ off → t.windowA p o true = s.windowA p o true
     let takes := fun off new => ∃ t, w off = .next t ∧ OnlyPkg p s t ∧ reads t off new
     let old := fun off => s.windowA p off true
     let some16 := fun off => if v.toNat % 65536 = 0 then old off else BitVec.ofNat 64 (v.toNat % 65536)
     let lanes := 0x100018 + 64 * port
     let minlanes := if v.toNat / 2 ^ 32 % 64 = 0 then (old lanes).toNat / 2 ^ 32 else v.toNat / 2 ^ 32 % 64
     (secure = true → takes (0x1000 + 64 * n) (BitVec.ofNat 64 (v.toNat % 2)) ∧ takes (0x1008 + 64 * n) (some16 (0x1008 + 64 * n)) ∧
       takes (0x1010 + 64 * n) (some16 (0x1010 + 64 * n)) ∧ takes lanes (BitVec.ofNat 64 (v.toNat % 2 ^ 32 + minlanes * 2 ^ 32)) ∧
       takes 0x200018 v ∧ takes 0x200020 v) ∧
     takes 0x200038 (old 0x200038 &&& ~~~v) ∧ (∀ j, j < 4 → takes (0x100 + 8 * j) v) ∧
     ∀ m c, m < 2048 → c < 4 →
       let at_ := 0x300000 + 128 * m
       let mine := fun e => e < 4 ∧ (s.pkg p).hosts e = true ∧ ((s.pkg p).dom e).cfg.dies.getLsbD (m / 256) = true
       let cmp := fun off new => ∃ t, w off = .next t ∧ { t with cmps := s.cmps } = s ∧ (∀ k, k ≠ (p, m) → Tab.get t.cmps .zero k = Tab.get s.cmps .zero k) ∧ reads t off new
       ((∃ e, mine e) → (∀ e, mine e → ((s.pkg p).dom e).cfg.debug = true) →
         cmp at_ (v &&& 0x3FFF3FFF3FFF3FFF) ∧ cmp (at_ + 0x40 + 16 * c) v ∧ cmp (at_ + 0x48 + 16 * c) v) ∧
       ((∀ e, mine e → ((s.pkg p).dom e).cfg.debug = false) → ∀ off, at_ ≤ off → off < at_ + 128 → off % 8 = 0 → w off = .next s ∧ old off = 0)) ∧
    (∀ off ∈ [0x1000 + 64 * n, 0x1008 + 64 * n, 0x1010 + 64 * n, 0x100018 + 64 * port, 0x200018, 0x200020], s.windowA p off false = 0) ∧
    (∀ off, off % 8 = 0 → ((s.registerRead p off 8 secure).pkg p).hostData = natLe 8 (s.windowA p off secure).toNat) ∧
    (∀ off size, size ≠ 8 ∨ off % 8 ≠ 0 → ((s.registerRead p off size secure).pkg p).hostData = List.replicate size 0xFF) ∧
    ∀ off size, off < 2 ^ 24 → 1 ≤ size → size ≠ 8 ∨ off % 8 ≠ 0 → ∃ t, exec (.registerWrite p off size v secure) s = .next t ∧
      t.launches = s.launches ∧ t.tasks = s.tasks ∧ t.tiles = s.tiles ∧ (t.pkg p).power = (s.pkg p).power ∧ (t.pkg p).ports = (s.pkg p).ports ∧
        (t.pkg p).hbmStacks = (s.pkg p).hbmStacks ∧ ∀ k, ((t.pkg p).dom d).queue k = ((s.pkg p).dom d).queue k

/-- Window B, within its size: a read of readable pages of the domain returns their bytes, any other all ones; a write to one page that may be
written now changes exactly those bytes; one to a page that may not be written, or that is invalid, PEER, SEC or refused by the region table,
is dropped and logged as event 3; a write across pages acts on each in turn (R78, R358, R364, R366). The write leaves DIRTY below DRAINBUD
or as it was, so that nothing is logged (R387). That an access outside the window does nothing, and the event's detail, are the model's
choices (log entries 46 and 19). -/
def Obligations.WindowB : Prop :=
  ∀ (s : State) (p off size : Nat) (bs : List Byte), p < 192 → 1 ≤ size → size ≤ 8 → 1 ≤ bs.length → bs.length ≤ 64 →
    let va := s.apertureVa p off
    let inside := fun n => off + n ≤ 2 ^ 30 * 2 ^ (s.pkg p).bar
    (¬inside size → exec (.windowBRead p off size) s = .next s) ∧ (¬inside bs.length → exec (.windowBWrite p off bs) s = .next s) ∧
    (inside size → (∀ j, j < size → ∃ g, s.aperturePage p (va + j) = some g) → ∃ t, exec (.windowBRead p off size) s = .next t ∧ OnlyPkg p s t ∧
      { t.pkg p with hostData := (s.pkg p).hostData } = s.pkg p ∧ (t.pkg p).hostData.length = size ∧
      ∀ j g, j < size → s.aperturePage p (va + j) = some g → (t.pkg p).hostData[j]? = some (s.physByte p p g.ppn ((va + j) % 65536))) ∧
    (inside size → (∃ j, j < size ∧ s.aperturePage p (va + j) = none) → ∃ t, exec (.windowBRead p off size) s = .next t ∧
      (t.pkg p).hostData = List.replicate size 0xFF ∧ t.launches = s.launches ∧ t.tasks = s.tasks ∧ t.tiles = s.tiles) ∧
    (∀ g, inside bs.length → s.aperturePage p va = some g → va % 65536 + bs.length ≤ 65536 → s.hostMayWrite p g = true → quiet s p g.ppn → ∃ t, exec (.windowBWrite p off bs) s = .next t ∧ t.launches = s.launches ∧ t.tasks = s.tasks ∧ t.tiles = s.tiles ∧
        (∀ j, j < bs.length → Memory.get (t.pkg p).hbm (g.ppn * 65536 + va % 65536 + j) = bs.getD j 0) ∧
        (∀ a, a < g.ppn * 65536 + va % 65536 ∨ g.ppn * 65536 + va % 65536 + bs.length ≤ a → Memory.get (t.pkg p).hbm a = Memory.get (s.pkg p).hbm a) ∧
        ∀ q, q ≠ p → (t.pkg q).hbm = (s.pkg q).hbm) ∧
    (inside bs.length → va % 65536 + bs.length ≤ 65536 →
      s.aperturePage p va = none ∨ (∃ g, s.aperturePage p va = some g ∧ s.hostMayWrite p g = false) →
      exec (.windowBWrite p off bs) s = .next (s.logEvent p (s.pkg p).wbdom 3 0 0 (natLe 8 va))) ∧
    (∀ g, isGlob va = true → s.xlateDom p (s.pkg p).wbdom va = some g →
      (s.aperturePage p va = none ↔ ptePeer g.pte = true ∨ pteSec g.pte = true ∨ s.physOk g (s.pkg p).wbdom = false)) ∧
    (isGlob va = false ∨ s.xlateDom p (s.pkg p).wbdom va = none → s.aperturePage p va = none) ∧
    (let n := 65536 - va % 65536
     inside bs.length → n < bs.length → ∃ t, exec (.windowBWrite p off (bs.take n)) s = .next t ∧
      exec (.windowBWrite p off bs) s = exec (.windowBWrite p (off + n) (bs.drop n)) t)

/-- HBM refresh management: in budget mode an activation counts, and at LEVEL commands one refresh command; in tracker mode a row that
reaches THR leaves its counter and its neighbours are refreshed; a mode takes effect in a bank at its next refresh (R86, R372). That row 0
has only the row above it is the model's choice (log entry 64). -/
def Obligations.RefreshManagement : Prop :=
  ∀ (s : State) (p n bank row : Nat), p < 192 → n < 16 →
    let x := s.pkg p
    let st := Tab.get x.hbmStacks .zero n
    let b := Tab.get x.banks .zero (n, bank)
    (∃ t, exec (.activate p n bank row) s = .next t ∧ OnlyPkg p s t ∧ { t.pkg p with banks := x.banks } = x ∧
      (∀ k, k ≠ (n, bank) → Tab.get (t.pkg p).banks .zero k = Tab.get x.banks .zero k) ∧
      (let c := Tab.get (t.pkg p).banks .zero (n, bank)
       (b.tracker = false → b.acts + 1 < st.level.toNat → c = { b with acts := b.acts + 1 }) ∧
       (b.tracker = false → st.level.toNat ≤ b.acts + 1 → c = { b with acts := b.acts + 1 - st.level.toNat, commands := b.commands + 1 }) ∧
       let near := if row = 0 then [1] else [row - 1, row + 1]
       (b.tracker = true → row ∉ b.rows.map (·.1) → b.rows.length < 8 →
         (1 < st.thr.toNat → c = { b with rows := b.rows ++ [(row, 1)] }) ∧ (st.thr.toNat ≤ 1 → c = { b with directed := near ++ b.directed })) ∧
       (b.tracker = true → row ∉ b.rows.map (·.1) → b.rows.length = 8 →
         c = { b with rows := (b.rows.map fun e => (e.1, e.2 - 1)).filter fun e => e.2 != 0 }) ∧
       ∀ k pre post, b.tracker = true → b.rows = pre ++ (row, k) :: post → row ∉ (pre ++ post).map (·.1) →
         (k + 1 < st.thr.toNat → c = { b with rows := pre ++ (row, k + 1) :: post }) ∧
         (st.thr.toNat ≤ k + 1 → c = { b with rows := pre ++ post, directed := near ++ b.directed }))) ∧
    PkgBecomes (.bankRefresh p n bank) s p { x with banks := Tab.put x.banks (n, bank) { b with tracker := st.trk } }

/-- A firmware write of a page table: a walk of the domain finds the new entry, while every launch of the domain that runs keeps the
translation it had to the end of its superstep (R62, R63). A domain is configured while nothing of it runs, parks or waits, on dies, stacks
and a network-on-chip plane of its own, with the size of the shadow pool, its partner, its regions, whether the package is a spare, and a
schedule to announce, which leaves the visits of every domain with launches as they are; reserved bits of an entry read 0 (R4, R64, R344, R351, R353, R366, R367). That the configuration brings all of these at
once is the model's choice (log entry 40), and so is where the pool lies (log entry 12). -/
def Obligations.TablesAndDomains : Prop :=
  (∀ (s : State) (p d : Nat) (va : Word) (pte : BitVec 64), p < 192 → d < 4 →
    ((s.pkg p).hosts d = false → exec (.pageTableWrite p d va pte) s = .next s) ∧
    ((s.pkg p).hosts d = true → ∃ t, exec (.pageTableWrite p d va pte) s = .next t ∧ t.tasks = s.tasks ∧ t.tiles = s.tiles ∧ (∀ q, q ≠ p → t.pkg q = s.pkg q) ∧
      (∀ l x, Tab.find s.launches l = some x → x.dom = d → x.lp ≠ [] → t.xlate l p va.toNat = s.xlate l p va.toNat) ∧
      ∀ n1 n2, let root := ((s.pkg p).dom d).cfg.root
        tableNext ((s.pkg p).hbm.nat (root + 8 * bits va.toNat 40 7) 8) = some n1 → tableNext ((s.pkg p).hbm.nat (n1 + 8 * bits va.toNat 28 12) 8) = some n2 →
        root % 65536 = 0 → n2 ≠ root → n2 ≠ n1 → t.xlateDom p d va.toNat = if pteOk pte.toNat d = true then some (pageOf p pte.toNat) else none)) ∧
  ∀ (s : State) (p d : Nat) (c : DomCfg), p < 192 → d < 4 →
    let x := s.pkg p
    let x' := { x with announce := match c.sched with
      | some e => some (e.1, (e.2.take 1024).map fun w => w &&& 0x7FF)
      | none => x.announce }
    let same := ∀ e, c.sched = some e → ∀ b, b < 4 → (∃ m ∈ s.launches, m.2.dom = b) →
      sameVisits ((e.2.take 1024).map fun w => w &&& 0x7FF) ((s.star.next.map (·.2)).getD s.star.sched) b
    (¬same → exec (.domainConfiguration p d c) s = .next s) ∧
    (s.domBusy p d = true ∨ x.cfgOk d c = false ∨ x.boot.step < 8 → exec (.domainConfiguration p d c) s = .next s) ∧
    (∀ e, e < 4 → e ≠ d → x.hosts e = true → (x.dom e).cfg.dies &&& c.dies ≠ 0 ∨ (x.dom e).cfg.hbmStacks &&& c.hbmStacks ≠ 0 ∨ (x.dom e).cfg.plane = c.plane →
      exec (.domainConfiguration p d c) s = .next s) ∧
    (s.domBusy p d = false → x.cfgOk d c = true → 8 ≤ x.boot.step → same → ∃ t, exec (.domainConfiguration p d c) s = .next t ∧ OnlyPkg p s t ∧
      { t.pkg p with doms := x.doms, regions := x.regions, partner := x.partner, pools := x.pools, spare := x.spare } = x' ∧
      (t.pkg p).dom d = { x.dom d with configured := true, cfg := c } ∧ (∀ e, e < 4 → e ≠ d → (t.pkg p).dom e = x.dom e) ∧
      (t.pkg p).spare = c.spare ∧ Tab.find (t.pkg p).partner d = c.partner ∧
      (c.poolSize = none → (t.pkg p).pools = x.pools) ∧
      (∀ n, c.poolSize = some n → (t.pkg p).pool d = { x.pool d with size := min n 0x200000 } ∧ ∀ e, e < 4 → e ≠ d → (t.pkg p).pool e = x.pool e) ∧
      ∀ r ∈ (t.pkg p).regions, bits r.toNat 2 2 = d → ∃ r' ∈ c.regions, r = r' &&& 0xFFFFFFFFFFFF000F)

/-! ### Supersteps -/

/-- STAGE ends: each fetch entry's rows are in committed TM, staged blocks return to their owners, and a launch of one wave computes, or a launch
parks when a park was asked for or a package parks every launch; an entry that cannot be read is launch fault 0x86 (R23, R51, R239, R289,
R311, R376). It does not end while a tile moves or is saved, a save or load waits for firmware, paths are to be redrawn, a package has not reached the launch's place in the pawn order, or
one's power fails (R77, R313, R338, R377). When a wave has ended on every package, the next one waits until the other waves' tiles are saved;
then its tiles are loaded from their valid images and run, and every other is parked (R17, R19, R310, R312, R327). As STAGE ends the
snapshot of the counters is taken, and the launch sees every change of a PTE (R63, R81, R326). That a wave ends on every package, with its
deltas kept in the launch's record (log entry 24), that STAGE ends on every package in one event (log entry 32), and that a re-run sees
changes of PTEs too (log entry 81) are the model's choices. -/
def Obligations.StagesAndWaves : Prop :=
  ∀ (s : State) (l : Nat), let x := s.launch l
    let fresh := (s.modLaunch l fun y => { y with ptOld := [] }).snapshot l
    let due := ∃ e ∈ x.lp, e.2.parkReq = true ∨ (s.pkg e.1).parksAll = true
    let back := fun o => match o with
      | Owner.fetch i => .own i
      | o => o
    let late := fun p => (s.pkg p).ack < x.startAck ∧ p ∈ s.star.members
    let open' := x.lp ≠ [] ∧ x.waitPaths = [] ∧ x.move = none ∧ x.moveHeld = false ∧ (∀ n, n < x.desc.ntile → (s.tile l n).saving = false) ∧ (∀ e ∈ x.lp, e.2.phase = .stage ∧ e.2.causes = [] ∧ (s.pkg e.1).drain = .none ∧ ¬late e.1)
    let flat := x.fault = none ∧ ∀ n, n < x.desc.ntile → (s.tile l n).wave = 0 ∧ (s.tile l n).parked = false
    (open' → due ∨ flat → x.fetchNow = [] →
      ∃ t, exec (.stageEnd l) s = .next t ∧ t.tasks = s.tasks ∧ (t.launch l).ptOld = [] ∧
        (∀ o, o < 8 * x.desc.ctrCount → Memory.get (t.launch l).snap (x.desc.ctrVa.toNat + o) = match s.xlateDom x.pkg x.dom (x.desc.ctrVa.toNat + o) with
          | some g => Memory.get (s.pkg g.home).hbm (g.ppn * 65536 + (x.desc.ctrVa.toNat + o) % 65536)
          | none => 0) ∧
        (∀ n, (t.launch l).pends = x.pends ∧ t.tmByte l n = s.tmByte l n ∧ (t.tile l n).own = (s.tile l n).own.map back ∧ (t.tile l n).ownCur = (s.tile l n).ownCur.map back) ∧
        (due → (∀ p y, Tab.find x.lp p = some y → (t.lpkg l p).phase = .parking ∧ (t.lpkg l p).parkReq = false) ∧
          ∀ n, n < x.desc.ntile → (s.tile l n).retired = false → (t.tile l n).saving = true) ∧
        (¬due → ∀ p y, p ∈ x.pkgs → Tab.find x.lp p = some y →
          (t.lpkg l p).wave = 0 ∧ (t.lpkg l p).sstep = y.sstep ∧ (t.lpkg l p).reexec = y.reexec ∧
          ((t.lpkg l p).phase = .compute ∨ (t.lpkg l p).phase = .closing) ∧
          (∀ n i, n < x.desc.ntile → i < x.desc.tasks → (s.task (.thread l n i)).status = .running → s.tilePkg l n = p → (s.tile l n).wave = 0 →
            (t.lpkg l p).phase = .compute))) ∧
    (∀ f c, open' → due ∨ flat → x.fetchNow = [f] → f.entries = [c] → f.tile < x.desc.ntile →
      let p := s.tilePkg l f.tile
      (fresh.entryReadable l p c = true → fresh.voteLost l p ((List.range c.rows).flatMap fun r => (lineRequests (c.rowAddr r) c.bytes).map (·.1)) = fresh →
        ∃ t, exec (.stageEnd l) s = .next t ∧ (t.launch l).fetchNow = [] ∧ (∀ n, n ≠ f.tile → t.tmByte l n = s.tmByte l n) ∧
          let row := fun r => fresh.copyRow l p .get c r
          let has := fun r o => (c.rowRange r).lo ≤ o ∧ o < (c.rowRange r).lo + (row r).length
          (∀ r o, r < c.rows → has r o → (∀ q, r < q → q < c.rows → ¬has q o) → t.tmByte l f.tile o = (row r).getD (o - (c.rowRange r).lo) 0) ∧
          ∀ o, (∀ r, r < c.rows → ¬has r o) → t.tmByte l f.tile o = s.tmByte l f.tile o) ∧
      (fresh.entryReadable l p c = false → x.split = false → x.holdTiles = false → noneFlips s l → ∃ t, exec (.stageEnd l) s = .next t ∧
        Tab.find t.launches l = none ∧ ((t.pkg x.pkg).dom x.dom).done.head? = some (x.id, 0x86))) ∧
    ((∃ e ∈ x.lp, e.2.phase ≠ .stage ∨ (s.pkg e.1).drain ≠ .none ∨ late e.1) ∨ x.waitPaths ≠ [] ∨ x.move ≠ none ∨ x.moveHeld = true ∨
      (∃ n, n < x.desc.ntile ∧ (s.tile l n).saving = true) → exec (.stageEnd l) s = .next s) ∧
    (s.waveDone l = false → exec (.waveEnd l) s = .next s) ∧
    ∀ p y, soleLp x p y →
      let here := fun n => n < x.desc.ntile ∧ s.tilePkg l n = p
      let comes := fun n w => here n ∧ (s.tile l n).wave = w ∧ (s.tile l n).parked = true ∧ (s.tile l n).retired = false
      (s.waveDone l = true → ∃ t, exec (.waveEnd l) s = .next t ∧ (t.lpkg l p).wave = y.wave + 1 ∧ (t.lpkg l p).sstep = y.sstep ∧ (t.launch l).pends = x.pends ∧
        let leaves := fun n => (s.tile l n).parked = false ∧ (s.tile l n).wave ≠ y.wave + 1 ∧ (s.tile l n).retired = false
        ((∃ n, here n ∧ leaves n) → t.tasks = s.tasks ∧ t.pkgs = s.pkgs ∧ ∀ n, here n → t.tmByte l n = s.tmByte l n ∧
          ((t.tile l n).saving = true ↔ leaves n) ∧ (t.tile l n).parked = (s.tile l n).parked) ∧
        ((∀ n, here n → ¬leaves n) → (∀ n, comes n (y.wave + 1) → s.validImage l n ≠ none) →
          ∀ n, here n → (t.tile l n).parked = decide ((s.tile l n).wave ≠ y.wave + 1))) ∧
      ∀ m, y.phase = .compute → x.move = none → x.moveHeld = false → here m → (s.tile l m).saving = true → (s.tile l m).wave ≠ y.wave →
        (∀ n, here n → n ≠ m → (s.tile l n).saving = false) → (s.saveTile l m (s.tile l m).altSave).2 = true →
        let saved := (s.saveTile l m (s.tile l m).altSave).1
        ∃ t, exec (.contextSaveComplete l m .written) s = .next t ∧ (t.tile l m).saving = false ∧
          ((∀ n, comes n y.wave → saved.validImage l n ≠ none) → (∀ n, here n → (t.tile l n).parked = decide ((s.tile l n).wave ≠ y.wave)) ∧
            ∀ n img, comes n y.wave → saved.validImage l n = some img → ∀ o, o < x.desc.tmSize → t.tmByte l n o = Memory.get img (0x16000 + o)) ∧
          ((∃ n, comes n y.wave ∧ saved.validImage l n = none) → (t.launch l).moveHeld = true) ∧
          ∀ n, here n → ¬comes n y.wave → t.tmByte l n = s.tmByte l n ∧ ∀ i, t.task (.thread l n i) = s.task (.thread l n i)

/-- A package whose CLOSING has drained votes, or raises 0x4A on a conflict (R23, R85, R108, R227). An early abort of a one-package launch
within its limit restores every task's retained bank and runs the superstep again from STAGE, with REEXEC one higher, committed TM as it
was and nothing queued, nor any packet under way, the GFAAs among them applied first (R343); 0x45 serialises the re-run, 0x42 waits for new paths, 0x47 and 0x48 are not counted and park the launch; 0x43 and
0x44 end it, and so does 0x81 past the limit or on a second 0x45 (R25, R288, R289, R303–R306, R311, R324). An abort vote and a digest that
differs from its entry abort at the ladder's close (R227, R323, R324). That a re-run stays serialised after another cause (log entry 94), that an ABRT flag gives 0x46 and that a conflict found when CLOSING has
drained gives 0x4A beside it are the model's reading (log entry 43). -/
def Obligations.VotesAndAborts : Prop :=
  ∀ (s : State) (l p : Nat) (y : LPkg), p < 192 → soleLp (s.launch l) p y → let x := s.launch l
    let ends := fun (i : Instr) st => x.desc.replay = false → x.holdTiles = false → noneFlips s l → ∃ t, exec i s = .next t ∧
      Tab.find t.launches l = none ∧ ((t.pkg x.pkg).dom x.dom).done.head? = some (x.id, st)
    let again := { y with phase := .stage, wave := 0, reexec := y.reexec + 1, causes := [], vote := none, seen := [], lasts := [], req := none }
    (y.phase = .closing → y.causes = [] → s.drained l p = true →
      (s.conflictsOn l p = [] → ∃ t v, exec (.vote l p) s = .next t ∧ { t with launches := s.launches } = s ∧
        t.lpkg l p = { y with phase := .voted, vote := some v } ∧ (v.abort = true ↔ s.syncFlag l p 2 = true) ∧ v.flags = s.voteFlags l p) ∧
      (s.conflictsOn l p ≠ [] → ∃ t, exec (.vote l p) s = .next t ∧ { t with launches := s.launches } = s ∧ (t.lpkg l p).phase = .closing ∧
        (t.lpkg l p).causes = if s.syncFlag l p 2 = true then [0x46, 0x4A] else [0x4A])) ∧
    (y.phase ≠ .closing ∨ y.causes ≠ [] ∨ s.drained l p = false → exec (.vote l p) s = .next s) ∧
    (y.phase = .compute ∨ y.phase = .closing → ∀ c, y.causes = [c] →
      (c ∈ [0x40, 0x41, 0x42, 0x45, 0x46, 0x47, 0x48, 0x49, 0x4A] → ¬(c = 0x45 ∧ x.serial = true) →
        let counts := c ≠ 0x47 ∧ c ≠ 0x48
        y.aborts < x.desc.limit ∨ (¬counts ∧ y.aborts ≤ x.desc.limit) →
        ∃ t, exec (.earlyAbort l) s = .next t ∧ (counts → t.lpkg l p = { again with aborts := y.aborts + 1 }) ∧ (¬counts → t.lpkg l p = { again with parkReq := true }) ∧
          (∀ q ∈ t.fabric, q.launch ≠ l) ∧ (∀ q ∈ s.fabric, q.launch = l → q.st = .inFlight → ∀ g, q.gfaa = some g → g.addr / 65536 ∈ (t.pkg q.dst).power.dirty) ∧
          (t.launch l).pends = [] ∧ (t.launch l).shadows = [] ∧ ((t.launch l).serial = true ↔ x.serial = true ∨ c = 0x45) ∧ (c = 0x42 → p ∈ (t.launch l).waitPaths) ∧
          (∀ n i, (s.task (.thread l n i)).status ≠ .retired → t.task (.thread l n i) =
            { Task.zero with bank := (s.task (.thread l n i)).kept, kept := (s.task (.thread l n i)).kept, status := .running }) ∧
          ∀ n, t.tmByte l n = s.tmByte l n ∧ (t.tile l n).ownCur = (s.tile l n).own) ∧
      (c ∈ [0x43, 0x44] → ends (.earlyAbort l) c) ∧
      (c ∈ [0x40, 0x41, 0x42, 0x45, 0x46, 0x49, 0x4A] → x.desc.limit ≤ y.aborts → ends (.earlyAbort l) 0x81) ∧
      (c = 0x45 → x.serial = true → ends (.earlyAbort l) 0x81)) ∧
    (y.causes = [] → y.phase ≠ .aborting → exec (.earlyAbort l) s = .next s) ∧
    ∀ v, y.phase = .voted → y.causes = [] → y.vote = some v → y.aborts < x.desc.limit →
      let va := x.desc.digestVa.toNat
      let differs := x.desc.digestMode = 2 ∧ y.sstep < leNat (s.launchRead l x.pkg va 8) ∧
        leNat (s.launchRead l x.pkg (va + 0x40 + 8 * y.sstep) 8) ≠ (if v.abort = true then v.digest else x.decided.getD (s.digestPkg l p)).toNat
      v.abort = true ∨ differs → ¬(differs ∧ x.serial = true) → ∃ t, exec (.ladderClose l p) s = .next t ∧ t.lpkg l p = { again with aborts := y.aborts + 1 } ∧
        ((t.launch l).serial = true ↔ x.serial = true ∨ differs)

/-- The ladder of a one-package launch whose tiles all run closes on a commit: every tile has its effects applied in key order, so that of the
writes of a byte of committed TM the one with the greatest key shows, and nothing else is new there; blocks are with the owners that the last
GIVEs name, the direction table has the rows of the last loads, and TRIGs are recorded and meet the trigger once every task has executed
one or exited; SSTEP advances, every task's SYNC returns, and the launch goes on to STAGE or to a checkpoint's pause, which ends in STAGE (R23,
R26, R35, R51, R55, R57, R242, R279, R322, R351). Whether a partner has room for a set is a free value (log entry 8), and that two sets of
each package are kept is the model's choice (log entry 44). -/
def Obligations.CommitShowsDeltas : Prop :=
  (∀ (s : State) (l p : Nat) (y : LPkg) (v : Vote), OneCommit s l p y v.reshape → votesCommit y v → someSync s l p →
    let x := s.launch l
    let ps := x.pends
    ∃ t, exec (.ladderClose l p) s = .next t ∧
      (t.lpkg l p).phase = (if v.ckpt = true then .paused else .stage) ∧ (t.lpkg l p).sstep = y.sstep + 1 ∧ (t.lpkg l p).reexec = 0 ∧
      (t.launch l).pends = [] ∧ (t.launch l).gflags = v.flags ∧ (t.launch l).digest = pmix (x.digest ^^^ x.decided.getD (s.digestPkg l p)) ∧
      (∀ n i, n < x.desc.ntile → i < x.desc.tasks → s.tilePkg l n = p → t.task (.thread l n i) = (s.task (.thread l n i)).commit y.sstep) ∧
      (∀ n, n < x.desc.ntile → s.tilePkg l n = p →
        (t.tile l n).tm = ({ s.tile l n with cflags := 0 }.applyAll x.desc n ps).tm ∧
        (∀ o, (∀ e ∈ ps, (∀ op a w, e.eff ≠ .atomic n op a w) ∧ ∀ m, e.eff ≠ .msg n m) →
          ((∀ e ∈ ps, ∀ b, ¬tmPuts n o e b) → t.tmByte l n o = s.tmByte l n o) ∧ ∀ b, LastPut ps (tmPuts n o) b → t.tmByte l n o = b) ∧
        (t.tile l n).ownCur = (t.tile l n).own ∧
        (∀ b, b < (s.tile l n).ownCur.length → let gives := fun (e : Pend) (d : Nat) => e.tile = n ∧ e.eff = .give b d
          ((∀ e ∈ ps, ∀ d, ¬gives e d) → (t.tile l n).own[b]? = (s.tile l n).ownCur[b]?) ∧
            ∀ d, LastPut ps gives d → (t.tile l n).own[b]? = some (.own d)) ∧
        ∀ o, let loads := fun (e : Pend) (b : Byte) => ∃ r bs, e.tile = n ∧ e.eff = .qrtld r bs ∧ 128 * r ≤ o ∧ o < 128 * r + bs.length ∧ b = bs.getD (o - 128 * r) 0
          ((∀ e ∈ ps, ∀ b, ¬loads e b) → Memory.get (t.tile l n).qrtab o = Memory.get (s.tile l n).qrtab o) ∧
            ∀ b, LastPut ps loads b → Memory.get (t.tile l n).qrtab o = b) ∧
      (∀ a, a ∈ (t.launch l).trigs ↔ a ∈ x.trigs ∨ ∃ e ∈ ps, e.eff = .trig ∧ a = (e.tile, e.task) ∧ s.tilePkg l e.tile = p) ∧
      ((t.launch l).trigHeld = true ↔ x.trigHeld = true ∨ ∀ n i, n < x.desc.ntile → i < x.desc.tasks →
        (n, i) ∈ (t.launch l).trigs ∨ (t.task (.thread l n i)).status = .retired) ∧
      (noneFlips t l → (t.launch l).trigHeld = true → (t.launch l).trigDone = true)) ∧
  ∀ (s : State) (l p q : Nat) (y : LPkg), soleLp (s.launch l) p y → y.phase = .paused →
    ∃ t, exec (.checkpointPauseEnd l) s = .next t ∧ t.lpkg l p = { y with phase := .stage } ∧ (t.launch l).ckpt = false ∧ t.tasks = s.tasks ∧
      (∀ n, { t.tile l n with cmps := (s.tile l n).cmps } = s.tile l n) ∧
      (Tab.find (s.pkg p).partner (s.launch l).dom = some q → if (s.stashCmps l).ckptFits l = true then ∃ c rest, (t.pkg q).ckpts = c :: rest ∧ c.launch = l ∧ c.owner = p ∧
          c.complete = true ∧ c.sstep = y.sstep ∧
          ∀ n, n < (s.launch l).desc.ntile → s.tilePkg l n = p → (s.tile l n).parked = false → ∃ z, Tab.find c.tiles n = some z ∧ z.tm = (s.tile l n).tm ∧
            z.own = (s.tile l n).own ∧ z.cmps = s.cmp p (s.tile l n).phys
        else (t.pkg q).ckpts = (s.pkg q).ckpts)

/-- Errors: an uncorrectable one in open state, a shadow page's line after its second read included, raises 0x40 and a residue mismatch 0x41;
in committed state, or once the superstep is decided, a rebuilt or passing one changes nothing and another ends a launch without REPLAY
with 0x80; in ABORT the work's errors are absorbed; one in a cache, rebuilt or not, changes nothing (R87, R289, R307, R341, R349, R390). That
a mismatch in a commit-time operation, once the superstep is decided, is launch fault 0x80 is the model's reading (log entry 50). A die that no launch holds leaves service at once,
never before every holder stands at a commit, and ends a launch that has then too few with 0x84 (R22, R371). -/
def Obligations.ErrorsAndDies : Prop :=
  (∀ (s : State) (l n : Nat) (rebuilt : Bool), n < (s.launch l).desc.ntile → let p := s.tilePkg l n
    let x := s.launch l
    let work := [SramPlace.deltaPool, .liveBank, .inFlight]
    let raises := fun i c => ∃ t, exec i s = .next t ∧ Raised s t l p c
    let ends := fun i => x.split = false → x.desc.replay = false → x.holdTiles = false → noneFlips s l → ∃ t, exec i s = .next t ∧
      Tab.find t.launches l = none ∧ ((t.pkg x.pkg).dom x.dom).done.head? = some (x.id, 0x80)
    let shadowed := fun home ppn => ∃ h ∈ x.shadows, h.home = home ∧ h.ppn = ppn
    let decided := (s.lpkg l p).phase ∈ [Phase.committed, .paused, .parking, .held, .waitSpare]
    (openOn s l p →
      (∀ place ∈ SramPlace.accumulators :: work, raises (.sramError l n place rebuilt) 0x40) ∧
      (∀ home ppn, shadowed home ppn → raises (.sramError l n (.hbmLine home ppn) false) 0x40) ∧ raises (.residueMismatch l n) 0x41) ∧
    (∀ place ∈ [SramPlace.committedTm, .retainedBank], exec (.sramError l n place true) s = .next s) ∧
    (∀ place ∈ [SramPlace.dieCache, .instrCache], exec (.sramError l n place rebuilt) s = .next s) ∧
    (∀ home ppn, exec (.sramError l n (.hbmLine home ppn) true) s = .next s) ∧
    (openOn s l p ∨ decided → (∀ place ∈ [SramPlace.committedTm, .retainedBank], ends (.sramError l n place false)) ∧
      ∀ home ppn, ¬shadowed home ppn → ends (.sramError l n (.hbmLine home ppn) false)) ∧
    (decided → (∀ place ∈ work, exec (.sramError l n place true) s = .next s ∧ ends (.sramError l n place false)) ∧ ends (.residueMismatch l n)) ∧
    ((s.lpkg l p).phase = .aborting → (∀ place ∈ SramPlace.accumulators :: work, exec (.sramError l n place rebuilt) s = .next s) ∧
      exec (.residueMismatch l n) s = .next s)) ∧
  ∀ (s : State) (p d : Nat), p < 192 → d < 8 →
    let holds := fun x : Launch => (p, d) ∈ x.dies ∨ ∃ m, x.move = some m ∧ (p, d) ∈ m.dies
    ((∃ l x, (l, x) ∈ s.launches ∧ holds x ∧ (s.launch l).atCommit = false) → exec (.dieOutOfService p d) s = .next s) ∧
    ((∀ e ∈ s.launches, ¬holds e.2) → ∃ t, exec (.dieOutOfService p d) s = .next t ∧ OnlyPkg p s t ∧
      ∀ k c i, k < 8 → c < 16 → i < 16 → (t.pkg p).usable k c i = ((s.pkg p).usable k c i && k != d)) ∧
    ∀ l x, s.launches = [(l, x)] → (p, d) ∈ x.dies → x.atCommit = true → s.freeDies p x.dom x.desc.dieMask = [] → x.desc.elastic = false →
      (x.dies.filter fun e => e.1 = p ∧ e.2 ≠ d).length < x.desc.minDies → x.split = false → x.holdTiles = false → noneFlips s l → ∃ t, exec (.dieOutOfService p d) s = .next t ∧
        Tab.find t.launches l = none ∧ ((t.pkg x.pkg).dom x.dom).done.head? = some (x.id, 0x84)

/-- The scheduler: LAUNCH_START starts the next launch of a domain on its dies, its tiles of the CCE weight that firmware gives, in the
launch-start state of R13, at superstep 0 (R13, R16, R32, R43, R278); AGING raises an effective priority below 7 by 1 (R28);
PREEMPTION_REQUEST first demands dies of an ELASTIC launch that has some to spare beyond those demanded already, and then, for a queued
launch of higher base priority that still lacks dies, parks one after an abort with 0x47 while its vote is open (R33, R45, R311);
POWER_PARK_TIMEOUT aborts with 0x48 one that has not reached a barrier, some package of it still computing (R376). How many dies are demanded and how long a demand that has
lapsed bars another one are the model's choices (log entry 41), and so is that AGING raises the launches held ahead of the queue as well (log
entry 80); that a vote sent but not decided lets the commit come first is its reading (log entry 38). -/
def Obligations.SchedulerEvents : Prop :=
  ∀ (s : State) (p d w : Nat), p < 192 → d < 4 → 1 ≤ w → w ≤ 15 → let i := Instr.launchStart p { dom := d, weight := w }
    (∀ l dies, s.open p d = true → s.firstFailed p d = none → s.mayStart p d = true → s.nextLaunch p d = some l → s.grantFor (s.launch l) = some dies →
      (s.launch l).lp = [] → (s.launch l).initial = [] → s.areasOk l = true → let x := s.launch l
      ∃ t, exec i s = .next t ∧ (t.launch l).dies = dies ∧ (t.launch l).pends = [] ∧ (t.launch l).desc = x.desc ∧
        (∀ q ∈ x.pkgs, (t.lpkg l q).phase = .stage ∧ (t.lpkg l q).sstep = 0 ∧ (t.lpkg l q).reexec = 0 ∧ (t.lpkg l q).bt = ((s.pkg x.pkg).dom x.dom).bt) ∧
        l ∉ (((t.pkg x.pkg).dom x.dom).queue x.desc.prio).entries ∧
        ∀ n, n < x.desc.ntile → let z := t.tile l n
          (∀ o, t.tmByte l n o = 0) ∧ z.own = startOwners x.desc ∧ z.ownCur = z.own ∧ z.mbHead = 0 ∧ z.mbTail = 0 ∧ z.cflags = 0 ∧ z.gres = [] ∧
          z.retired = false ∧ z.sfu = [] ∧ z.copies = [] ∧ z.weight = w ∧ (∀ a r c, z.accElem a r c = 0) ∧
          (x.desc.qrVa = 0 → ∀ e j, e < 256 → j < 32 → (dirRow z.qrtab e).getD j 0 = if e = 0 then BitVec.ofNat 32 (2 ^ (31 - j)) else 0) ∧
          (x.desc.qrVa ≠ 0 → ∀ o, o < 32768 → Memory.get z.qrtab o = (s.directRead (t.tilePkg l n) x.dom x.desc.qrVa.toNat 32768).getD o 0) ∧
          ∀ j, j < x.desc.tasks → let k := t.task (.thread l n j)
            let b := k.bank
            k.status = .running ∧ b.pc = x.desc.entry ∧ k.kept = b ∧ k.haz = [] ∧ k.pend = [] ∧ k.mreq = [] ∧
            (∀ r, b.rx r = if r = 10 then x.desc.param else 0) ∧ (∀ r, b.rv r = 0) ∧ (∀ r, b.rp r = if r = 0 then BitVec.allOnes 256 else 0) ∧
            b.tflags = 0 ∧ b.trapen = 0 ∧ b.rmode = 0 ∧ b.repRemain = 0 ∧ b.repIter = 0 ∧ b.stallchk = BitVec.ofNat 2 x.desc.floor ∧
            b.fmt = Vector.replicate 8 1 ∧ b.qidx = 0 ∧ b.qdim = 0 ∧ b.qseed = 0 ∧ b.qmode = 0 ∧ b.qstep = 0 ∧ b.qdraw = 0 ∧ b.qdrawprev = 0 ∧
            b.pipctr = 0 ∧ b.pipdraw = 0 ∧ b.tags = []) ∧
    (s.open p d = false → exec i s = .next s) ∧
    (s.firstFailed p d = none → s.mayStart p d = false ∨ s.nextLaunch p d = none → exec i s = .next s) ∧
    (∀ q k l, q < 8 → ((((s.pkg p).dom d).queue q).ahead ++ (((s.pkg p).dom d).queue q).entries)[k]? = some l →
      (7 ≤ (s.launch l).desc.prio + (s.launch l).aged → exec (.aging p d q k) s = .next s) ∧
      ((s.launch l).desc.prio + (s.launch l).aged < 7 → ∃ t, exec (.aging p d q k) s = .next t ∧ { t with launches := s.launches } = s ∧
        t.launch l = { s.launch l with aged := (s.launch l).aged + 1 } ∧ ∀ m, m ≠ l → t.launch m = s.launch m)) ∧
    (∀ l, let x := s.launch l
      let spare := fun m h => (s.launch m).desc.elastic = true ∧ h ∉ (s.launch m).lapsed ∧
        ∃ q ∈ (s.launch m).pkgs, (s.launch m).desc.minDies + (s.launch m).demand < ((s.launch m).diesOn q).length
      let wanting := fun h => (∃ q, s.nextLaunch q x.dom = some h ∧ s.mayStart q x.dom = true) ∧ s.grantFor (s.launch h) = none ∧
        ∃ e ∈ s.launches, e.1 = l ∧ e.2.desc.prio < (s.launch h).desc.prio
      x.running = true → (∀ e ∈ x.lp, e.2.parkReq = false ∧ 0x47 ∉ e.2.causes) →
      (s.ask l = none → exec (.preemptionRequest l) s = .next s) ∧
      (∀ h n, s.ask l = some (.demand h n) → wanting h ∧ spare l h ∧ 0 < n ∧ ∃ t, exec (.preemptionRequest l) s = .next t ∧ { t with launches := s.launches } = s ∧
        { t.launch l with demandFor := x.demandFor } = { x with demand := x.demand + n } ∧ (∀ g, g ∈ (t.launch l).demandFor ↔ g ∈ x.demandFor ∨ g = h) ∧ ∀ m, m ≠ l → t.launch m = s.launch m) ∧
      (s.ask l = some .preempt → (∃ h, wanting h ∧ ∀ e ∈ s.launches, e.2.dom = x.dom → e.2.running = true → e.2.leaving = false → (s.launch e.1) = e.2 →
          e.2.desc.prio < (s.launch h).desc.prio → ¬spare e.1 h) ∧
        ∃ t, exec (.preemptionRequest l) s = .next t ∧ t.tasks = s.tasks ∧ t.tiles = s.tiles ∧
          ((∃ q ∈ x.pkgs, openOn s l q) → ∃ q ∈ x.pkgs, openOn s l q ∧ 0x47 ∈ (t.lpkg l q).causes) ∧
          ((∀ q ∈ x.pkgs, ¬openOn s l q) → t.pkgs = s.pkgs ∧ ∀ q y, Tab.find x.lp q = some y → t.lpkg l q = { y with parkReq := true }))) ∧
    ((s.pkg p).parksAll = false → exec (.powerParkTimeout p) s = .next s) ∧
    ((s.pkg p).parksAll = true → ∃ t, exec (.powerParkTimeout p) s = .next t ∧ { t with launches := s.launches, pkgs := s.pkgs } = s ∧
      ∀ l x, Tab.find s.launches l = some x →
        let computes := ∃ e ∈ x.lp, e.2.phase = .compute ∨ e.2.phase = .closing
        (p ∈ x.pkgs → computes → (openOn s l p → 0x48 ∈ (t.lpkg l p).causes) ∧
          ((∃ q ∈ x.pkgs, openOn s l q) → ∃ q ∈ x.pkgs, openOn s l q ∧ 0x48 ∈ (t.lpkg l q).causes)) ∧
        (p ∉ x.pkgs ∨ ¬computes → t.launch l = x))

/-- Saving a parking launch: the last image written parks the launch ahead of its queue; an uncorrectable error clears VALID in both slots and
writes the tile's image to the alternate area, a second one holds the launch, or stops its move or change of waves, which firmware retries
or ends with 0x82; a page of either area that cannot be reached ends the launch with 0x82 (R33, R310, R313, R318, R327, R366, R380). Tiles held after a failed save go when the host releases them (R318). The event's
8-byte detail is the model's choice (log entry 19), and so are what the region table's refusal of an image's page does (log entry 71), that
each tile's save goes through the table of its own package (log entry 74), and that firmware's end of a held launch gives its tiles up at
once (log entry 92). -/
def Obligations.ContextSaves : Prop :=
  ∀ (s : State) (l n : Nat), let x := s.launch l
    let y := s.tile l n
    let c := s.clearBoth l n
    let ph := (s.lpkg l (s.tilePkg l n)).phase
    let written := exec (.contextSaveComplete l n .written) s
    let failed := exec (.contextSaveComplete l n .uncorrectable) s
    let stops := fun o => noneFlips s l → ∃ t, o = .next t ∧
      (t.launch l).holdTiles = true ∧ (t.launch l).status = 0x82 ∧ ∀ p z, Tab.find (t.launch l).lp p = some z → z.phase = .failed
    (∀ p va, (∀ g, s.xlate l p (va + 4) = some g → s.physOk g x.dom = false) → s.clearValid l p va = (s, false)) ∧
    (∀ p va g, s.xlate l p (va + 4) = some g → s.physOk g x.dom = true → (s.clearValid l p va).2 = true ∧
      (quiet s g.home g.ppn → (Memory.get ((s.clearValid l p va).1.pkg g.home).hbm (g.ppn * 65536 + (va + 4) % 65536)).getLsbD 0 = false)) ∧
    (let r := s.clearValid l (s.tilePkg l n) (x.area n false)
     (r.2 = true → c = r.1.clearValid l (s.tilePkg l n) (x.area n true)) ∧ (r.2 = false → c = r)) ∧
    (n < x.desc.ntile → y.saving = true → x.moveHeld = false →
      (ph ≠ .held → c.2 = true → y.altSave = false → failed = .next ((c.1.modTile l n fun z => { z with altSave := true }).logEvent x.pkg x.dom 6 0 x.id (natLe 8 n))) ∧
      (ph ≠ .held → c.2 = false → stops failed) ∧
      (ph = .compute ∨ ph = .stage → c.2 = true → y.altSave = true → ∃ t, failed = .next t ∧ (t.launch l).moveHeld = true ∧ t.tasks = s.tasks ∧ t.tiles = s.tiles) ∧
      (ph = .parking →
        (y.altSave = true → c.2 = true → ∃ t, failed = .next t ∧ t.tasks = s.tasks ∧ t.tiles = s.tiles ∧ ∀ p z, Tab.find (t.launch l).lp p = some z → z.phase = .held) ∧
        ((s.saveTile l n y.altSave).2 = true →
          ((∃ m, m < x.desc.ntile ∧ m ≠ n ∧ (s.tile l m).saving = true) → ∃ t, written = .next t ∧ (t.tile l n).saving = false ∧ t.launches = s.launches) ∧
          ((∀ m, m < x.desc.ntile → m ≠ n → (s.tile l m).saving = false) → ∃ t, written = .next t ∧
            (t.launch l).dies = [] ∧ (∀ p z, Tab.find (t.launch l).lp p = some z → z.phase = .parked) ∧ (t.tile l n).parked = true ∧
            l ∈ (((t.pkg x.pkg).dom x.dom).queue x.desc.prio).ahead)) ∧
        ((s.saveTile l n y.altSave).2 = false → stops written))) ∧
    (y.saving = false → written = .next s ∧ failed = .next s) ∧
    (x.lp ≠ [] → (∀ e ∈ x.lp, e.2.phase = .held) →
      (x.holdTiles = false → noneFlips s l → ∃ t, exec (.heldLaunchDecision l false) s = .next t ∧ Tab.find t.launches l = none ∧
        ((t.pkg x.pkg).dom x.dom).done.head? = some (x.id, 0x82)) ∧
      (s.allSaved l = false → ∃ t, exec (.heldLaunchDecision l true) s = .next t ∧ (∀ p z, Tab.find (t.launch l).lp p = some z → z.phase = .parking) ∧
        ∀ m, m < x.desc.ntile → (s.tile l m).saving = true → (t.tile l m).altSave = false)) ∧
    (x.dead = false → exec (.heldTilesRelease l) s = .next s) ∧
    (x.dead = true → ∃ t, exec (.heldTilesRelease l) s = .next t ∧ Tab.find t.launches l = none ∧ (∀ m, Tab.find t.tiles (l, m) = none) ∧
      ∀ m i, Tab.find t.tasks (.thread l m i) = none)

/-! ### Trap delivery and isolation -/

/-- A frozen task's trap goes to the buddy's handler slot where BV is set and that slot has room, else to the alternate's under the same
conditions, each a usable tile of its cluster other than itself: an idle slot starts at the handler image with x1 to x31 zero, a busy one
queues it behind the others (R290–R293); without a handler image or a slot with room it escalates (R298); where ABORT has begun on its package it goes nowhere (R299). Firmware resumes an
escalated page fault whose page it maps and a realigned stream skew, and kills any other (R298, R320, R326). -/
def Obligations.TrapsAreDelivered : Prop :=
  ∀ (s : State) (l n i : Nat) (r : TrapRec), i < 4 →
    let k := Slot.thread l n i
    let p := s.tilePkg l n
    let va := ((s.pkg p).dom (s.launch l).dom).cfg.handlerVa
    let gone := (s.lpkg l p).phase = .aborting
    let phys := (s.tile l n).phys
    let room := fun lo b => paired (s.pkg p) phys lo b ∧ (s.handler p b).queue.length < 4
    let takes := fun b alt => alt = false ∧ room 0 b ∨ alt = true ∧ room 8 b ∧ ∀ c, ¬room 0 c
    (gone → exec (.trapDelivery l n i) s = .next s ∧ ∀ act, exec (.escalatedTrap l n i act) s = .next s) ∧
    (¬gone → (s.task k).status = .frozen r → r.delivered = false → (s.task k).pend = [] →
      (va = 0 ∨ (∀ b alt, ¬takes b alt) → ∃ t, exec (.trapDelivery l n i) s = .next t ∧
        t.task k = { s.task k with status := .escalated { r with delivered := true } } ∧ (∀ j, j ≠ k → t.task j = s.task j) ∧ t.handlers = s.handlers) ∧
      (∀ b alt, va ≠ 0 → takes b alt → ∃ t, exec (.trapDelivery l n i) s = .next t ∧
        t.task k = { s.task k with status := .frozen { r with delivered := true, alt := alt } } ∧
        ((s.handler p b).serving = none → (s.handler p b).queue = [] → t.handler p b = { serving := some (k, alt), queue := [] } ∧
          t.task (.handler p b) = { Task.zero with bank := { Bank.zero with pc := va }, status := .running }) ∧
        (∀ q, (s.handler p b).serving = some q → t.handler p b = { serving := some q, queue := (s.handler p b).queue ++ [(k, alt)] } ∧
          t.task (.handler p b) = s.task (.handler p b)))) ∧
    (¬gone → (s.task k).status = .escalated r →
      (r.cause = 0x0B → ∀ act, ∃ t, exec (.escalatedTrap l n i act) s = .next t ∧ t.task k = { s.task k with
        status := .running, noCmp := true, bank := { (s.task k).bank with
          qidx := (s.task k).bank.qidx - (s.task k).bank.qdrawprev, pipctr := (s.task k).bank.pipctr - (s.task k).bank.pipdrawprev, qstep := (s.task k).bank.qstep - 1 } }) ∧
      (r.cause = 0x05 → ∀ home ppn, (s.pkg home).hosts (s.launch l).dom = true → ∃ t, exec (.escalatedTrap l n i (.map home ppn)) s = .next t ∧
        t.task k = { s.task k with status := .running, noCmp := true }) ∧
      (r.cause ≠ 0x0B → ∃ t, exec (.escalatedTrap l n i .kill) s = .next t ∧ (t.task k).status = .killed ∧ (t.task k).bank = (s.task k).bank ∧
        ∀ e ∈ (t.launch l).pends, ¬(e.tile = n ∧ e.task = i)))

/-- Isolation within a superstep: whatever instruction word a thread slot runs, no other slot's registers or status and no handler slot's queue
change, and committed TM of no tile changes, so that no task sees what another does before the commit (R12, R20, R26, R55, R56, R290).
Only a stream skew that ends or restarts the launch, or will (R320), goes further. -/
def Obligations.InstructionsKeepToTheirSlot : Prop :=
  ∀ (s t : State) (i : Instr) (l n k : Nat), s.cur = .thread l n k → isEvent i = false → exec i s = .next t → (s.launch l).holdTiles = false →
    Tab.find t.launches l ≠ none → (t.launch l).restarts = (s.launch l).restarts → (t.launch l).fault = none →
    (∀ j, j ≠ s.cur → t.task j = s.task j) ∧ t.handlers = s.handlers ∧ (∀ l' m o, t.tmByte l' m o = s.tmByte l' m o) ∧ t.star = s.star ∧ t.cur = s.cur

/-- At the commit of a one-package launch: a queued LAUNCH fills its reserved entry with the descriptor as it then stands, completes it with
the status of R11 that it meets, or gives the entry up where the descriptor cannot be used; broadcast writes are in the table of a domain that
no other package hosts, the greatest key's value of each entry, and otherwise in a BCAST frame held until the commit's COMMIT frames are
sent; and GRES of a member tile returns the combination of the group's contributions (R26, R31, R75, R114, R115, R231, R248–R250, R350). -/
def Obligations.CommitSendsAndCombines : Prop :=
  (∀ (s : State) (l p : Nat) (y : LPkg) (v : Vote), OneCommit s l p y v.reshape → votesCommit y v → someSync s l p →
    let x := s.launch l
    let d := x.dom
    d < 4 →
    ∃ t, exec (.ladderClose l p) s = .next t ∧
      (x.shadows = [] → ∀ e0 va q, q < 8 → e0.eff = .launch va q → s.tilePkg l e0.tile = p →
        (∃ a b, x.pends = a ++ e0 :: b ∧ ∀ e ∈ a ++ b, ∀ va q, e.eff ≠ .launch va q) →
        let old := ((s.pkg p).dom d).queue q
        let now := ((t.pkg p).dom d).queue q
        let desc := descOf (s.directRead p d va.toNat 256)
        (s.descUsable p d va.toNat = false → now = { old with reserved := old.reserved - 1 } ∧ ((t.pkg p).dom d).done = ((s.pkg p).dom d).done) ∧
        (s.descUsable p d va.toNat = true → desc.id ∉ x.again →
          (∀ st, s.validate p d q desc false = some st → now = { old with reserved := old.reserved - 1 } ∧
            ((t.pkg p).dom d).done = if st = 0x98 then ((s.pkg p).dom d).done else ((desc.id, st) :: ((s.pkg p).dom d).done).take 4096) ∧
          (s.validate p d q desc false = none → ∃ n, now = { old with reserved := old.reserved - 1, entries := old.entries ++ [n] } ∧ Tab.find s.launches n = none ∧
            (t.launch n).desc = desc ∧ (t.launch n).id = desc.id ∧ (t.launch n).va = va ∧ (t.launch n).lp = [] ∧ (t.launch n).pkg = p ∧ (t.launch n).dom = d))) ∧
      (let puts := fun (i : Nat) (e : Pend) (w : Word) => e.eff = .bst i w
       (s.sharedDom p d = false → ∀ i, ((∀ e ∈ x.pends, ∀ w, ¬puts i e w) → Tab.get ((t.pkg p).dom d).bt 0 i = Tab.get ((s.pkg p).dom d).bt 0 i) ∧
         ∀ w, LastPut x.pends (puts i) w → Tab.get ((t.pkg p).dom d).bt 0 i = w) ∧
       (s.sharedDom p d = true → (∃ e ∈ x.pends, ∃ i w, puts i e w) → x.pends.length ≤ 253 →
         ((t.pkg p).dom d).bt = ((s.pkg p).dom d).bt ∧ (∃ g ∈ (t.pkg p).tx, ∃ pages, g.pay = .commit l y.sstep pages ∧ g.last = true) ∧
           ∃ f ∈ (t.pkg p).txHeld, ∃ es, f.pay = .bcast l y.sstep es ∧ f.last = true ∧ (∀ i w, (i, w) ∈ es ↔ ∃ e ∈ x.pends, puts i e w) ∧
             ∀ i w, LastPut x.pends (puts i) w → es.reverse.find? (fun e => e.1 == i) = some (i, w)))) ∧
  ∀ (s : State) (l p : Nat) (y : LPkg), OneCommit s l p y (s.syncFlag l p 1) → y.phase = .closing → y.causes = [] → s.drained l p = true →
    s.conflictsOn l p = [] → s.syncFlag l p 2 = false → someSync s l p →
    ∃ t u, exec (.vote l p) s = .next t ∧ exec (.ladderClose l p) t = .next u ∧
      ∀ n g op, n < (s.launch l).desc.ntile → s.tilePkg l n = p → (s.tile l n).retired = false → n ∈ (s.launch l).groups.getD g [] →
        let vals := gredVals ((s.launch l).pends.filter fun e => s.tilePkg l e.tile == p) g op
        (vals = [] → ∀ w, ((g, op.code), w) ∉ (u.tile l n).gres) ∧
        (vals ≠ [] → ((g, op.code), gredValue op vals) ∈ (u.tile l n).gres ∧ ∀ w, ((g, op.code), w) ∈ (u.tile l n).gres → w = gredValue op vals)

/-- The commit makes a shadow page homed on the launch's package current: the level-2 entry names it, and of the bytes that global stores and
CPPUTs wrote each has the value of its greatest key, while the others are those of the page as it was at its first write; a word of a
reduction page has its committed value and every contribution, summed and saturated once, and the contributors to a saturated one WO in
CFLAGS; counters in the page go on as they are, and the page that the entry named is released (R26, R65–R68, R80, R81). That a change of the
page's PA which firmware made meanwhile is overwritten is the model's reading (log entry 57). -/
def Obligations.CommitMakesPagesCurrent : Prop :=
  ∀ (s : State) (l p : Nat) (y : LPkg) (v : Vote) (h : Shadow) (a : Nat), OneCommit s l p y v.reshape → votesCommit y v → someSync s l p → noLaunches s l →
    let x := s.launch l
    let ps := x.pends
    x.desc.digestMode = 0 → x.shadows = [h] → h.home = p → h.ppn < 2 ^ 36 → h.old ≠ h.ppn → quiet s p h.ppn →
    (h.ppn, l, y.sstep) ∈ ((s.pkg p).pool x.dom).out → (∀ r ∈ ((s.pkg p).pool x.dom).releasing, r.ppn ≠ h.ppn) →
    entryAt s p x.dom h.vpn a → tablesOff s p x.dom h.vpn h.ppn →
    (∀ e ∈ ps, ∀ w bs, e.eff = .gWrite w bs → w.toNat % 65536 + bs.length ≤ 65536) →
    let e := (s.pkg p).hbm.nat a 8
    let writes := ∃ f ∈ ps, ∃ w bs, f.eff = .gWrite w bs ∧ w.toNat / 65536 = h.vpn
    let adds := fun (va : Nat) (f : Pend) => ∃ w c fin, f.eff = .redAdd w c fin ∧ w.toNat = va
    let before := fun o => Memory.get (s.pkg p).hbm (h.ppn * 65536 + o)
    ∃ t, exec (.ladderClose l p) s = .next t ∧ (t.pkg p).hbm.nat a 8 = withPa e h.ppn ∧
      (∀ b, b / 65536 ≠ h.ppn → b < a ∨ a + 8 ≤ b → Memory.get (t.pkg p).hbm b = Memory.get (s.pkg p).hbm b) ∧ (∀ q, q ≠ p → (t.pkg q).hbm = (s.pkg q).hbm) ∧
      (∃ r ∈ ((t.pkg p).pool x.dom).releasing, r.ppn = ptePa e ∧ r.launch = l ∧ r.nextCommit = false) ∧
      ∀ o, o < 65536 → let va := h.vpn * 65536 + o
        let after := Memory.get (t.pkg p).hbm (h.ppn * 65536 + o)
        (x.inCounters va = true → after = Memory.get (s.pkg p).hbm (h.old * 65536 + o)) ∧
        (x.inCounters va = false → (∀ va', va' / 65536 = h.vpn → ∀ f ∈ ps, ¬adds va' f) →
          ((∀ f ∈ ps, ∀ b, ¬gPuts va f b) → after = before o) ∧ ∀ b, LastPut ps (gPuts va) b → after = b) ∧
        (¬writes → x.desc.ctrCount = 0 → (∀ f ∈ ps, ∀ w c fin, f.eff = .redAdd w c fin → w.toNat % 8 = 0) → o % 8 = 0 →
          let total := sint 64 ((s.pkg p).hbm.nat (h.ppn * 65536 + o) 8) +
            (ps.map fun f => match f.eff with
              | .redAdd w c _ => if w.toNat = va then c else 0
              | _ => 0).sum
          let sat := max (-(2 ^ 63 - 1)) (min (2 ^ 63 - 1) total)
          ((∀ f ∈ ps, ¬adds va f) → (t.pkg p).hbm.nat (h.ppn * 65536 + o) 8 = (s.pkg p).hbm.nat (h.ppn * 65536 + o) 8) ∧
          ((∃ f ∈ ps, adds va f) → (t.pkg p).hbm.nat (h.ppn * 65536 + o) 8 = (sat % 2 ^ 64).toNat ∧
            (sat ≠ total → ∀ f ∈ ps, adds va f → f.tile < x.desc.ntile → s.tilePkg l f.tile = p → (t.tile l f.tile).cflags.getLsbD 5 = true)))

/-- A launch of one package whose every task has exited or is killed reaches END at the commit of that superstep: its record is written at the
completion address with its id, the final superstep, F, status 0, or 0x83 after a kill, and GFLAGS, its vector fires, its id joins the
retained completions, and its tiles and tasks are given up (R23, R36, R37, R297, R322, R362, R363). The elapsed time is a free value (log
entry 4). -/
def Obligations.LaunchesEnd : Prop :=
  ∀ (s : State) (l p : Nat) (y : LPkg) (v : Vote), OneCommit s l p y v.reshape → votesCommit y v → noLaunches s l →
    let x := s.launch l
    x.desc.digestMode = 0 → x.shadows = [] → x.holdTiles = false → x.status = 0 → x.started ≠ 0 → x.dom < 4 → x.desc.tasks ≠ 0 →
    noneFlips s l → (∀ q ∈ s.fabric, q.launch ≠ l) →
    (∀ n i, n < x.desc.ntile → i < x.desc.tasks → s.tilePkg l n = p ∧ (s.task (.thread l n i)).status ∈ [TaskStatus.atExit, .killed, .retired]) →
    let killed := x.killMark = true ∨ ∃ n i, n < x.desc.ntile ∧ i < x.desc.tasks ∧ (s.task (.thread l n i)).status = .killed
    ∀ st : Nat, (killed → st = 0x83) → (¬killed → st = 0) →
    let f := pmix (x.digest ^^^ x.decided.getD (s.digestPkg l p))
    let va := x.desc.complVa.toNat
    ∃ t, exec (.ladderClose l p) s = .next t ∧ Tab.find t.launches l = none ∧ (∀ n, Tab.find t.tiles (l, n) = none) ∧
      (∀ n i, Tab.find t.tasks (.thread l n i) = none) ∧
      ((t.pkg x.pkg).dom x.dom).done = ((x.id, st) :: ((s.pkg x.pkg).dom x.dom).done).take 4096 ∧
      (s.xlateDom x.pkg x.dom va = none → (t.pkg x.pkg).msix = (s.pkg x.pkg).msix) ∧
      ∀ g, s.xlateDom x.pkg x.dom va = some g → va % 32 = 0 → (t.pkg x.pkg).msix = (s.pkg x.pkg).msix ++ [8 * x.dom + x.queue] ∧
        (tablesOff s x.pkg x.dom (va / 65536) g.ppn ∨ g.home ≠ x.pkg →
          let o := g.ppn * 65536 + va % 65536
          let m := (t.pkg g.home).hbm
          m.nat o 8 = x.id.toNat ∧ m.nat (o + 8) 8 = y.sstep % 2 ^ 64 ∧ m.nat (o + 16) 8 = f.toNat ∧ m.nat (o + 28) 1 = st ∧ m.nat (o + 29) 1 = v.flags.toNat ∧
            m.nat (o + 30) 2 = 0 ∧ ∀ b, b < o ∨ o + 32 ≤ b → Memory.get m b = Memory.get (s.pkg g.home).hbm b)

/-- The last VOTE frame of a launch of several packages, when no abort came before it, makes commit(k) on the package that processes it: its tasks
and TM commit, SSTEP advances, the flags, the checkpoint bit and the group results combine every package's votes, and COMMIT frames with its
flipped pages are sent; once every package has committed, nothing of the superstep is queued. A VOTE frame with abort set that the last package
processes rolls the launch back on every package: REEXEC one higher, the same SSTEP, every retained bank live again and nothing queued. The
LAST COMMIT frame makes a page of its list current: in another package's view its entry names the new page and held lines of the released
one are dropped; at its home the entry is rewritten and the released page waits, once however many packages list it (R23, R25, R26, R66,
R68, R74, R303, R305, R306, R347, R349, R350, R354, R356). That the last abort VOTE rolls every package back in one event (log entry 32), and
that at home the entry is rewritten whatever PA it held (log entry 57), are the model's readings. -/
def Obligations.PackagesDecideTogether : Prop :=
  (∀ (s : State) (p : Nat) (f : Frame) (w : Nat) (r : List (Option Frame × Nat)) (l k n : Nat) (v : Vote), p < 192 → noneEnded s → noneWaiting s →
    (s.pkg p).failed = false → (s.pkg p).rx = (some f, w) :: r →
    (f.pay = .vote l k n v ∨ ∃ u ps, f.pay = .voteMore l k n ps ∧ Tab.find (s.lpkg l p).seen f.src = some u ∧ v = { u with partials := u.partials ++ ps }) →
    let x := s.launch l
    let z := s.lpkg l p
    p ∈ x.pkgs → (x.lp.map (·.1)).Nodup → Tab.find x.lp p = some z →
    z.phase ∈ [Phase.stage, .compute, .closing, .voted, .sent] → z.sstep = k → z.reexec = n →
    (v.abort = false → f.last = true → (∀ q ∈ x.pkgs, q = f.src ∨ q ∈ z.lasts) → 1 < x.pkgs.length → x.desc.digestMode ≠ 2 → x.fault = none → x.desc.elastic = false →
      (∀ m, m < x.desc.ntile → s.tilePkg l m = p → (s.tile l m).parked = false) → someSync s l p → (∀ e ∈ s.launches, e.1 ≤ s.free) →
      let votes := (Tab.put z.seen f.src v).map (·.2)
      let wrote := fun vpn => ∃ e ∈ x.pends, s.tilePkg l e.tile = p ∧ ((∃ va bs, e.eff = .gWrite va bs ∧ va.toNat / 65536 = vpn) ∨ ∃ va c fin, e.eff = .redAdd va c fin ∧ va.toNat / 65536 = vpn)
      ∃ t, exec (.voteFrame p) s = .next t ∧ (t.pkg p).rx = r ∧ (t.lpkg l p).phase = .committed ∧ (t.lpkg l p).sstep = k + 1 ∧ (t.lpkg l p).reexec = 0 ∧
        (∀ m i, m < x.desc.ntile → i < x.desc.tasks → s.tilePkg l m = p → t.task (.thread l m i) = (s.task (.thread l m i)).commit k) ∧
        (∀ m, m < x.desc.ntile → s.tilePkg l m = p → (t.tile l m).tm = ({ s.tile l m with cflags := 0 }.applyAll x.desc m x.pends).tm ∧
          (t.tile l m).ownCur = (t.tile l m).own ∧
          ∀ g op, (s.tile l m).retired = false → m ∈ x.groups.getD g [] →
            let vals := (votes.flatMap (·.partials)).flatMap fun q => if q.grp = g ∧ q.op = op then q.vals else []
            vals ≠ [] → ((g, op.code), gredValue op vals) ∈ (t.tile l m).gres ∧ ∀ w, ((g, op.code), w) ∈ (t.tile l m).gres → w = gredValue op vals) ∧
        (∃ g ∈ (t.pkg p).tx, ∃ pages, g.pay = .commit l k pages ∧ g.last = true) ∧
        (∀ h ∈ x.shadows, h.home = p ∨ h.home ∉ x.pkgs ∧ wrote h.vpn → ∃ g ∈ (t.pkg p).tx, ∃ pages, g.pay = .commit l k pages ∧
          ∃ h' ∈ pages, h'.home = h.home ∧ h'.vpn = h.vpn ∧ h'.ppn = h.ppn) ∧
        ((∀ e ∈ x.lp, e.2.sstep = k ∧ e.2.phase ≠ .committed) → (∀ i, (t.launch l).gflags.getLsbD i = true ↔ ∃ u ∈ votes, u.flags.getLsbD i = true) ∧
          ((t.launch l).ckpt = true ↔ ∃ u ∈ votes, u.ckpt = true)) ∧
        ((∀ e ∈ x.lp, e.1 ≠ p → e.2.phase = .committed) → (t.launch l).pends = [] ∧ (t.launch l).shadows = []) ∧
        ((∃ e ∈ x.lp, e.1 ≠ p ∧ e.2.phase ≠ .committed) → (t.launch l).pends = x.pends ∧
          ∀ m, s.tilePkg l m ≠ p → t.tile l m = s.tile l m ∧ ∀ i, t.task (.thread l m i) = s.task (.thread l m i))) ∧
    (v.abort = true → f.pay = .vote l k n v → (∀ e ∈ x.lp, e.1 ≠ p → e.2.phase = .aborting) →
      (∀ e ∈ x.lp, e.2.aborts < x.desc.limit ∧ ∀ c ∈ e.2.causes, c ∈ [0x40, 0x41, 0x42, 0x46, 0x49, 0x4A]) →
      ∃ t, exec (.voteFrame p) s = .next t ∧ (t.pkg p).rx = r ∧ (t.launch l).pends = [] ∧ (t.launch l).shadows = [] ∧
        (∀ q y, Tab.find x.lp q = some y → t.lpkg l q =
          { y with phase := .stage, wave := 0, reexec := y.reexec + 1, aborts := y.aborts + 1, causes := [], vote := none, seen := [], lasts := [], req := none }) ∧
        (∀ m i, (s.task (.thread l m i)).status ≠ .retired → t.task (.thread l m i) =
          { Task.zero with bank := (s.task (.thread l m i)).kept, kept := (s.task (.thread l m i)).kept, status := .running }) ∧
        ∀ m, (t.tile l m).tm = (s.tile l m).tm ∧ (t.tile l m).ownCur = (s.tile l m).own)) ∧
  ∀ (s : State) (p : Nat) (f : Frame) (w : Nat) (r : List (Option Frame × Nat)) (l k : Nat) (pages : List Shadow) (h : Shadow) (a : Nat), p < 192 → noneEnded s →
    noneWaiting s → (s.pkg p).failed = false → (s.pkg p).rx = (some f, w) :: r → f.pay = .commit l k pages → f.last = true → f.src ≠ p → f.dom < 4 →
    (s.pkg p).hosts f.dom = true → Tab.get (s.pkg p).listing [] (f.src, l, k) ++ pages = [h] → h.ppn < 2 ^ 36 → entryAt s p f.dom h.vpn a →
    let e := (s.pkg p).hbm.nat a 8
    ∃ t, exec (.commitFrame p) s = .next t ∧ (t.pkg p).rx = r ∧ (t.pkg p).ack = w ∧ Tab.get (t.pkg p).listing [] (f.src, l, k) = [] ∧ t.tasks = s.tasks ∧
      (h.home ≠ p → (∀ c, c ∈ (t.pkg p).stale ↔ c ∈ (s.pkg p).stale ∧ ¬(c.1 = h.home ∧ c.2.1 / 1024 = h.old)) ∧
        (e / 8 % 2 = 1 → e / 16 % 256 = h.home → (t.pkg p).hbm.nat a 8 = withPa e h.ppn) ∧ (¬(e / 8 % 2 = 1 ∧ e / 16 % 256 = h.home) → (t.pkg p).hbm = (s.pkg p).hbm)) ∧
      (h.home = p → ((h.ppn, l, k) ∉ ((s.pkg p).pool f.dom).out → (t.pkg p).hbm = (s.pkg p).hbm) ∧
        ((h.ppn, l, k) ∈ ((s.pkg p).pool f.dom).out → Tab.find s.launches l ≠ none → quiet s p h.ppn → (t.pkg p).hbm.nat a 8 = withPa e h.ppn ∧
          (∀ b, b < a ∨ a + 8 ≤ b → Memory.get (t.pkg p).hbm b = Memory.get (s.pkg p).hbm b) ∧
          ((h.ppn, l, k) ∉ ((t.pkg p).pool f.dom).out) ∧ ∃ c ∈ ((t.pkg p).pool f.dom).releasing, c.ppn = ptePa e ∧ c.launch = l ∧ c.nextCommit = false))
end

