-- ==== Sys2Proof/Laws/Memory.lean ====
section
/-!
SUPPORT. The laws of tables and byte memories: what a lookup after an update gives, and that every memory operation keeps the
canonical form.
-/

namespace Sys2Proof.Machine

open Sys2Proof

/-! ### Tables -/

theorem Tab.find_put_same {K V : Type} [DecidableEq K] (t : Tab K V) (k : K) (v : V) : (t.put k v).find k = some v := by
  induction t with
  | nil => simp [Tab.put, Tab.find]
  | cons e t ih => by_cases h : e.1 = k <;> simp [Tab.put, Tab.find, h, ih]

theorem Tab.find_put_other {K V : Type} [DecidableEq K] (t : Tab K V) {k j : K} (v : V) (h : j ≠ k) :
    (t.put k v).find j = t.find j := by
  induction t with
  | nil => simp [Tab.put, Tab.find, Ne.symm h]
  | cons e t ih =>
    by_cases hk : e.1 = k
    · simp [Tab.put, Tab.find, hk, Ne.symm h]
    · by_cases hj : e.1 = j
      · simp [Tab.put, Tab.find, hj, h]
      · simp [Tab.put, Tab.find, hk, hj, ih]

theorem Tab.get_put_same {K V : Type} [DecidableEq K] (t : Tab K V) (d : V) (k : K) (v : V) : (t.put k v).get d k = v := by
  simp [Tab.get, Tab.find_put_same]

theorem Tab.get_put_other {K V : Type} [DecidableEq K] (t : Tab K V) (d : V) {k j : K} (v : V) (h : j ≠ k) :
    (t.put k v).get d j = t.get d j := by
  simp [Tab.get, Tab.find_put_other t v h]

/-! ### The canonical form -/

theorem Memory.wfFrom_mono {lo lo' : Nat} {m : Memory} (h : Memory.wfFrom lo m) (hl : lo' ≤ lo) : Memory.wfFrom lo' m := by
  cases m with
  | nil => rfl
  | cons c m =>
    simp only [Memory.wfFrom, Bool.and_eq_true, decide_eq_true_eq] at h ⊢
    exact ⟨⟨Nat.le_trans hl h.1.1, h.1.2⟩, h.2⟩

/-- A cell of a canonical memory lies at or above its bound and is not zero. -/
theorem Memory.mem_of_wfFrom {lo : Nat} {m : Memory} (h : Memory.wfFrom lo m) : ∀ c ∈ m, lo ≤ c.1 ∧ c.2 ≠ 0 := by
  induction m generalizing lo with
  | nil => simp
  | cons c m ih =>
    simp only [Memory.wfFrom, Bool.and_eq_true, decide_eq_true_eq, bne_iff_ne] at h
    intro d hd
    rcases List.mem_cons.mp hd with rfl | hd
    · exact ⟨h.1.1, h.1.2⟩
    · have := ih h.2 d hd
      exact ⟨by omega, this.2⟩

theorem Memory.wfFrom_filter {lo : Nat} {m : Memory} (p : Host.Cell → Bool) (h : Memory.wfFrom lo m) : Memory.wfFrom lo (m.filter p) := by
  induction m generalizing lo with
  | nil => rfl
  | cons c m ih =>
    simp only [Memory.wfFrom, Bool.and_eq_true, decide_eq_true_eq] at h
    by_cases hp : p c
    · rw [List.filter_cons_of_pos hp]
      simp only [Memory.wfFrom, Bool.and_eq_true, decide_eq_true_eq]
      exact ⟨h.1, ih h.2⟩
    · simpa [hp] using Memory.wfFrom_mono (ih h.2) (by omega)

/-- Two canonical memories, the second above the first, make one. -/
theorem Memory.wfFrom_append {lo mid : Nat} {m n : Memory} (hm : Memory.wfFrom lo m) (hn : Memory.wfFrom mid n) (hl : lo ≤ mid)
    (hb : ∀ c ∈ m, c.1 < mid) : Memory.wfFrom lo (m ++ n) := by
  induction m generalizing lo with
  | nil => exact Memory.wfFrom_mono hn hl
  | cons c m ih =>
    simp only [Memory.wfFrom, Bool.and_eq_true, decide_eq_true_eq] at hm
    have hc := hb c (by simp)
    simp only [List.cons_append, Memory.wfFrom, Bool.and_eq_true, decide_eq_true_eq]
    exact ⟨hm.1, ih hm.2 hc fun d hd => hb d (by simp [hd])⟩

theorem Memory.wfFrom_above {lo b : Nat} {m : Memory} (h : Memory.wfFrom lo m) : Memory.wfFrom b (m.filter fun c => b ≤ c.1) := by
  induction m generalizing lo with
  | nil => rfl
  | cons c m ih =>
    simp only [Memory.wfFrom, Bool.and_eq_true, decide_eq_true_eq] at h
    by_cases hb : b ≤ c.1
    · rw [List.filter_cons_of_pos (by simpa using hb)]
      simp only [Memory.wfFrom, Bool.and_eq_true, decide_eq_true_eq]
      exact ⟨⟨hb, h.1.2⟩, Memory.wfFrom_filter _ h.2⟩
    · simpa [hb] using ih h.2

theorem Memory.cells_zero (a : Nat) (bs : List Byte) : Memory.cells a (0 :: bs) = Memory.cells (a + 1) bs := rfl

theorem Memory.cells_ne (a : Nat) {b : Byte} (bs : List Byte) (h : b ≠ 0) : Memory.cells a (b :: bs) = (a, b) :: Memory.cells (a + 1) bs := by
  rw [Memory.cells, if_neg h]

theorem Memory.wfFrom_cells (a : Nat) (bs : List Byte) : Memory.wfFrom a (Memory.cells a bs) := by
  induction bs generalizing a with
  | nil => rfl
  | cons b bs ih =>
    by_cases hb : b = 0
    · rw [hb, Memory.cells_zero]
      exact Memory.wfFrom_mono (ih (a + 1)) (by omega)
    · rw [Memory.cells_ne a bs hb]
      simp only [Memory.wfFrom, Bool.and_eq_true, decide_eq_true_eq, bne_iff_ne]
      exact ⟨⟨Nat.le_refl _, hb⟩, ih (a + 1)⟩

theorem Memory.cells_below (a : Nat) (bs : List Byte) : ∀ c ∈ Memory.cells a bs, a ≤ c.1 ∧ c.1 < a + bs.length := by
  induction bs generalizing a with
  | nil => simp [Memory.cells]
  | cons b bs ih =>
    intro c hc
    by_cases hb : b = 0
    · rw [hb, Memory.cells_zero] at hc
      have := ih (a + 1) c hc
      simp only [List.length_cons]
      omega
    · rw [Memory.cells_ne a bs hb, List.mem_cons] at hc
      simp only [List.length_cons]
      rcases hc with rfl | hc
      · simp only; omega
      · have := ih (a + 1) c hc
        omega

theorem Memory.wf_nil : Memory.wf [] := rfl

theorem Memory.wf_cells (a : Nat) (bs : List Byte) : Memory.wf (Memory.cells a bs) :=
  Memory.wfFrom_mono (Memory.wfFrom_cells a bs) (Nat.zero_le _)

/-- A write keeps the canonical form. -/
theorem Memory.wf_write {m : Memory} (h : m.wf) (a : Nat) (bs : List Byte) : (m.write a bs).wf := by
  have h1 : Memory.wfFrom 0 (m.filter fun c => decide (c.1 < a)) := Memory.wfFrom_filter _ h
  have h2 := Memory.wfFrom_append h1 (Memory.wfFrom_cells a bs) (Nat.zero_le _) (by simp)
  refine Memory.wfFrom_append h2 (Memory.wfFrom_above (b := a + bs.length) h) (Nat.zero_le _) ?_
  intro c hc
  rcases List.mem_append.mp hc with hc | hc
  · have : c.1 < a := by simpa using (List.mem_filter.mp hc).2
    omega
  · exact (Memory.cells_below a bs c hc).2

theorem Memory.wf_setNat {m : Memory} (h : m.wf) (a n v : Nat) : (m.setNat a n v).wf := Memory.wf_write h a _

/-- Moving every cell up by a constant keeps the form. -/
theorem Memory.wfFrom_shift {lo : Nat} {m : Memory} (h : Memory.wfFrom lo m) (d : Nat) :
    Memory.wfFrom (d + lo) (m.map fun c => (d + c.1, c.2)) := by
  induction m generalizing lo with
  | nil => rfl
  | cons c m ih =>
    simp only [Memory.wfFrom, Bool.and_eq_true, decide_eq_true_eq, List.map_cons] at h ⊢
    exact ⟨⟨by omega, h.1.2⟩, by simpa [Nat.add_assoc] using ih h.2⟩

/-- Placing a canonical image keeps the canonical form. -/
theorem Memory.wf_place {m img : Memory} (h : m.wf) (hi : img.wf) (lo len : Nat) : (m.place lo len img).wf := by
  have h1 : Memory.wfFrom 0 (m.filter fun c => decide (c.1 < lo)) := Memory.wfFrom_filter _ h
  have h3 := Memory.wfFrom_shift (Memory.wfFrom_filter (fun c : Host.Cell => decide (c.1 < len)) hi) lo
  have h2 := Memory.wfFrom_append h1 h3 (Nat.zero_le _) (by simp)
  refine Memory.wfFrom_append h2 (Memory.wfFrom_above (b := lo + len) h) (Nat.zero_le _) ?_
  intro c hc
  rcases List.mem_append.mp hc with hc | hc
  · have : c.1 < lo := by simpa using (List.mem_filter.mp hc).2
    omega
  · obtain ⟨d, hd, rfl⟩ := List.mem_map.mp hc
    have : d.1 < len := by simpa using (List.mem_filter.mp hd).2
    simp only
    omega

/-- Moving the cells of a run down to 0 keeps the form. -/
theorem Memory.wfFrom_unshift {lo : Nat} {m : Memory} (h : Memory.wfFrom lo m) (d : Nat) (hd : d ≤ lo) :
    Memory.wfFrom (lo - d) (m.map fun c => (c.1 - d, c.2)) := by
  induction m generalizing lo with
  | nil => rfl
  | cons c m ih =>
    simp only [Memory.wfFrom, Bool.and_eq_true, decide_eq_true_eq, List.map_cons] at h ⊢
    refine ⟨⟨by omega, h.1.2⟩, ?_⟩
    have := ih h.2 (by omega)
    rwa [show c.1 + 1 - d = c.1 - d + 1 by omega] at this

theorem Memory.wf_extract {m : Memory} (h : m.wf) (lo len : Nat) : (m.extract lo len).wf := by
  have h1 : Memory.wfFrom lo (m.filter fun c => decide (lo ≤ c.1) && decide (c.1 < lo + len)) := by
    have h2 := Memory.wfFrom_filter (fun c : Host.Cell => decide (c.1 < lo + len)) (Memory.wfFrom_above (b := lo) h)
    rw [List.filter_filter] at h2
    simpa [Bool.and_comm] using h2
  simpa [Memory.wf, Memory.extract] using Memory.wfFrom_unshift h1 lo (Nat.le_refl _)

/-! ### Reading after writing -/

theorem Memory.get_of_none (m : Memory) (k : Nat) (h : ∀ c ∈ m, c.1 ≠ k) : Memory.get m k = 0 := by
  induction m with
  | nil => rfl
  | cons c m ih =>
    have h1 := h c (by simp)
    simp [Memory.get, h1, ih fun d hd => h d (by simp [hd])]

theorem Memory.get_append_left (m n : Memory) (k : Nat) (h : ∀ c ∈ n, c.1 ≠ k) : Memory.get (m ++ n) k = Memory.get m k := by
  induction m with
  | nil => exact Memory.get_of_none n k h
  | cons c m ih => by_cases hc : c.1 = k <;> simp [Memory.get, hc, ih]

theorem Memory.get_append_right (m n : Memory) (k : Nat) (h : ∀ c ∈ m, c.1 ≠ k) : Memory.get (m ++ n) k = Memory.get n k := by
  induction m with
  | nil => rfl
  | cons c m ih => simp [Memory.get, h c (by simp), ih fun d hd => h d (by simp [hd])]

theorem Memory.get_filter_keep (m : Memory) (p : Nat → Bool) (k : Nat) (h : p k = true) :
    Memory.get (m.filter fun c => p c.1) k = Memory.get m k := by
  induction m with
  | nil => rfl
  | cons c m ih =>
    by_cases hk : c.1 = k
    · subst hk
      simp [h, Memory.get]
    · by_cases hp : p c.1 <;> simp [hp, Memory.get, hk, ih]

theorem Memory.get_cells (a : Nat) (bs : List Byte) (k : Nat) (h : a ≤ k) : Memory.get (Memory.cells a bs) k = bs.getD (k - a) 0 := by
  induction bs generalizing a with
  | nil => simp [Memory.cells, Memory.get]
  | cons b bs ih =>
    by_cases hk : k = a
    · subst hk
      by_cases hb : b = 0
      · rw [hb, Memory.cells_zero, Nat.sub_self, List.getD_cons_zero]
        exact Memory.get_of_none _ _ fun c hc => by have := Memory.cells_below (k + 1) bs c hc; omega
      · rw [Memory.cells_ne k bs hb]
        simp [Memory.get]
    · have h1 := ih (a + 1) (by omega)
      have h2 : k - a = (k - (a + 1)) + 1 := by omega
      by_cases hb : b = 0
      · rw [hb, Memory.cells_zero, h1, h2, List.getD_cons_succ]
      · rw [Memory.cells_ne a bs hb, Memory.get, if_neg (Ne.symm hk), h1, h2, List.getD_cons_succ]

/-- A byte outside the written ones reads as before. -/
theorem Memory.get_write_other (m : Memory) (a : Nat) (bs : List Byte) (k : Nat) (h : k < a ∨ a + bs.length ≤ k) :
    Memory.get (m.write a bs) k = Memory.get m k := by
  have hc : ∀ c ∈ Memory.cells a bs, c.1 ≠ k := fun c hc => by
    have := Memory.cells_below a bs c hc
    omega
  unfold Memory.write
  rcases h with h | h
  · have hb : ∀ c ∈ m.filter (fun c => decide (a + bs.length ≤ c.1)), c.1 ≠ k := fun c hc => by
      have : a + bs.length ≤ c.1 := by simpa using (List.mem_filter.mp hc).2
      omega
    rw [Memory.get_append_left _ _ _ hb, Memory.get_append_left _ _ _ hc]
    exact Memory.get_filter_keep m (fun x => decide (x < a)) k (by simpa using h)
  · have ha : ∀ c ∈ m.filter (fun c => decide (c.1 < a)), c.1 ≠ k := fun c hc => by
      have : c.1 < a := by simpa using (List.mem_filter.mp hc).2
      omega
    rw [List.append_assoc, Memory.get_append_right _ _ _ ha, Memory.get_append_right _ _ _ hc]
    exact Memory.get_filter_keep m (fun x => decide (a + bs.length ≤ x)) k (by simpa using h)

/-- A written byte reads as written. -/
theorem Memory.get_write_same (m : Memory) (a : Nat) (bs : List Byte) (k : Nat) (h : a ≤ k) (h' : k < a + bs.length) :
    Memory.get (m.write a bs) k = bs.getD (k - a) 0 := by
  have ha : ∀ c ∈ m.filter (fun c => decide (c.1 < a)), c.1 ≠ k := fun c hc => by
    have : c.1 < a := by simpa using (List.mem_filter.mp hc).2
    omega
  have hb : ∀ c ∈ m.filter (fun c => decide (a + bs.length ≤ c.1)), c.1 ≠ k := fun c hc => by
    have : a + bs.length ≤ c.1 := by simpa using (List.mem_filter.mp hc).2
    omega
  unfold Memory.write
  rw [Memory.get_append_left _ _ _ hb, Memory.get_append_right _ _ _ ha, Memory.get_cells a bs k h]

end Sys2Proof.Machine
end

