-- ==== Sys2Proof/Laws/State.lean ====
section
/-!
SUPPORT. The laws of the state's updates: one lemma for each field that an update leaves alone, and what a table reads after
an update.
-/

namespace Sys2Proof.Machine

open Sys2Proof

/-! ### setTask -/

@[simp] theorem State.setTask_cur (s : State) (k : Slot) (t : Task) : (s.setTask k t).cur = s.cur := rfl
@[simp] theorem State.setTask_agenda (s : State) (k : Slot) (t : Task) : (s.setTask k t).agenda = s.agenda := rfl
@[simp] theorem State.setTask_pace (s : State) (k : Slot) (t : Task) : (s.setTask k t).pace = s.pace := rfl
@[simp] theorem State.setTask_tiles (s : State) (k : Slot) (t : Task) : (s.setTask k t).tiles = s.tiles := rfl
@[simp] theorem State.setTask_launches (s : State) (k : Slot) (t : Task) : (s.setTask k t).launches = s.launches := rfl
@[simp] theorem State.setTask_handlers (s : State) (k : Slot) (t : Task) : (s.setTask k t).handlers = s.handlers := rfl
@[simp] theorem State.setTask_cmps (s : State) (k : Slot) (t : Task) : (s.setTask k t).cmps = s.cmps := rfl
@[simp] theorem State.setTask_pkgs (s : State) (k : Slot) (t : Task) : (s.setTask k t).pkgs = s.pkgs := rfl
@[simp] theorem State.setTask_fabric (s : State) (k : Slot) (t : Task) : (s.setTask k t).fabric = s.fabric := rfl
@[simp] theorem State.setTask_star (s : State) (k : Slot) (t : Task) : (s.setTask k t).star = s.star := rfl
@[simp] theorem State.setTask_free (s : State) (k : Slot) (t : Task) : (s.setTask k t).free = s.free := rfl

/-! ### modTask -/

@[simp] theorem State.modTask_cur (s : State) (k : Slot) (f : Task → Task) : (s.modTask k f).cur = s.cur := rfl
@[simp] theorem State.modTask_agenda (s : State) (k : Slot) (f : Task → Task) : (s.modTask k f).agenda = s.agenda := rfl
@[simp] theorem State.modTask_pace (s : State) (k : Slot) (f : Task → Task) : (s.modTask k f).pace = s.pace := rfl
@[simp] theorem State.modTask_tiles (s : State) (k : Slot) (f : Task → Task) : (s.modTask k f).tiles = s.tiles := rfl
@[simp] theorem State.modTask_launches (s : State) (k : Slot) (f : Task → Task) : (s.modTask k f).launches = s.launches := rfl
@[simp] theorem State.modTask_handlers (s : State) (k : Slot) (f : Task → Task) : (s.modTask k f).handlers = s.handlers := rfl
@[simp] theorem State.modTask_cmps (s : State) (k : Slot) (f : Task → Task) : (s.modTask k f).cmps = s.cmps := rfl
@[simp] theorem State.modTask_pkgs (s : State) (k : Slot) (f : Task → Task) : (s.modTask k f).pkgs = s.pkgs := rfl
@[simp] theorem State.modTask_fabric (s : State) (k : Slot) (f : Task → Task) : (s.modTask k f).fabric = s.fabric := rfl
@[simp] theorem State.modTask_star (s : State) (k : Slot) (f : Task → Task) : (s.modTask k f).star = s.star := rfl
@[simp] theorem State.modTask_free (s : State) (k : Slot) (f : Task → Task) : (s.modTask k f).free = s.free := rfl

/-! ### setTile -/

@[simp] theorem State.setTile_cur (s : State) (l t : Nat) (x : Tile) : (s.setTile l t x).cur = s.cur := rfl
@[simp] theorem State.setTile_agenda (s : State) (l t : Nat) (x : Tile) : (s.setTile l t x).agenda = s.agenda := rfl
@[simp] theorem State.setTile_pace (s : State) (l t : Nat) (x : Tile) : (s.setTile l t x).pace = s.pace := rfl
@[simp] theorem State.setTile_tasks (s : State) (l t : Nat) (x : Tile) : (s.setTile l t x).tasks = s.tasks := rfl
@[simp] theorem State.setTile_launches (s : State) (l t : Nat) (x : Tile) : (s.setTile l t x).launches = s.launches := rfl
@[simp] theorem State.setTile_handlers (s : State) (l t : Nat) (x : Tile) : (s.setTile l t x).handlers = s.handlers := rfl
@[simp] theorem State.setTile_cmps (s : State) (l t : Nat) (x : Tile) : (s.setTile l t x).cmps = s.cmps := rfl
@[simp] theorem State.setTile_pkgs (s : State) (l t : Nat) (x : Tile) : (s.setTile l t x).pkgs = s.pkgs := rfl
@[simp] theorem State.setTile_fabric (s : State) (l t : Nat) (x : Tile) : (s.setTile l t x).fabric = s.fabric := rfl
@[simp] theorem State.setTile_star (s : State) (l t : Nat) (x : Tile) : (s.setTile l t x).star = s.star := rfl
@[simp] theorem State.setTile_free (s : State) (l t : Nat) (x : Tile) : (s.setTile l t x).free = s.free := rfl

/-! ### modTile -/

@[simp] theorem State.modTile_cur (s : State) (l t : Nat) (f : Tile → Tile) : (s.modTile l t f).cur = s.cur := rfl
@[simp] theorem State.modTile_agenda (s : State) (l t : Nat) (f : Tile → Tile) : (s.modTile l t f).agenda = s.agenda := rfl
@[simp] theorem State.modTile_pace (s : State) (l t : Nat) (f : Tile → Tile) : (s.modTile l t f).pace = s.pace := rfl
@[simp] theorem State.modTile_tasks (s : State) (l t : Nat) (f : Tile → Tile) : (s.modTile l t f).tasks = s.tasks := rfl
@[simp] theorem State.modTile_launches (s : State) (l t : Nat) (f : Tile → Tile) : (s.modTile l t f).launches = s.launches := rfl
@[simp] theorem State.modTile_handlers (s : State) (l t : Nat) (f : Tile → Tile) : (s.modTile l t f).handlers = s.handlers := rfl
@[simp] theorem State.modTile_cmps (s : State) (l t : Nat) (f : Tile → Tile) : (s.modTile l t f).cmps = s.cmps := rfl
@[simp] theorem State.modTile_pkgs (s : State) (l t : Nat) (f : Tile → Tile) : (s.modTile l t f).pkgs = s.pkgs := rfl
@[simp] theorem State.modTile_fabric (s : State) (l t : Nat) (f : Tile → Tile) : (s.modTile l t f).fabric = s.fabric := rfl
@[simp] theorem State.modTile_star (s : State) (l t : Nat) (f : Tile → Tile) : (s.modTile l t f).star = s.star := rfl
@[simp] theorem State.modTile_free (s : State) (l t : Nat) (f : Tile → Tile) : (s.modTile l t f).free = s.free := rfl

/-! ### setLaunch -/

@[simp] theorem State.setLaunch_cur (s : State) (l : Nat) (x : Launch) : (s.setLaunch l x).cur = s.cur := rfl
@[simp] theorem State.setLaunch_agenda (s : State) (l : Nat) (x : Launch) : (s.setLaunch l x).agenda = s.agenda := rfl
@[simp] theorem State.setLaunch_pace (s : State) (l : Nat) (x : Launch) : (s.setLaunch l x).pace = s.pace := rfl
@[simp] theorem State.setLaunch_tasks (s : State) (l : Nat) (x : Launch) : (s.setLaunch l x).tasks = s.tasks := rfl
@[simp] theorem State.setLaunch_tiles (s : State) (l : Nat) (x : Launch) : (s.setLaunch l x).tiles = s.tiles := rfl
@[simp] theorem State.setLaunch_handlers (s : State) (l : Nat) (x : Launch) : (s.setLaunch l x).handlers = s.handlers := rfl
@[simp] theorem State.setLaunch_cmps (s : State) (l : Nat) (x : Launch) : (s.setLaunch l x).cmps = s.cmps := rfl
@[simp] theorem State.setLaunch_pkgs (s : State) (l : Nat) (x : Launch) : (s.setLaunch l x).pkgs = s.pkgs := rfl
@[simp] theorem State.setLaunch_fabric (s : State) (l : Nat) (x : Launch) : (s.setLaunch l x).fabric = s.fabric := rfl
@[simp] theorem State.setLaunch_star (s : State) (l : Nat) (x : Launch) : (s.setLaunch l x).star = s.star := rfl
@[simp] theorem State.setLaunch_free (s : State) (l : Nat) (x : Launch) : (s.setLaunch l x).free = s.free := rfl

/-! ### modLaunch -/

@[simp] theorem State.modLaunch_cur (s : State) (l : Nat) (f : Launch → Launch) : (s.modLaunch l f).cur = s.cur := rfl
@[simp] theorem State.modLaunch_agenda (s : State) (l : Nat) (f : Launch → Launch) : (s.modLaunch l f).agenda = s.agenda := rfl
@[simp] theorem State.modLaunch_pace (s : State) (l : Nat) (f : Launch → Launch) : (s.modLaunch l f).pace = s.pace := rfl
@[simp] theorem State.modLaunch_tasks (s : State) (l : Nat) (f : Launch → Launch) : (s.modLaunch l f).tasks = s.tasks := rfl
@[simp] theorem State.modLaunch_tiles (s : State) (l : Nat) (f : Launch → Launch) : (s.modLaunch l f).tiles = s.tiles := rfl
@[simp] theorem State.modLaunch_handlers (s : State) (l : Nat) (f : Launch → Launch) : (s.modLaunch l f).handlers = s.handlers := rfl
@[simp] theorem State.modLaunch_cmps (s : State) (l : Nat) (f : Launch → Launch) : (s.modLaunch l f).cmps = s.cmps := rfl
@[simp] theorem State.modLaunch_pkgs (s : State) (l : Nat) (f : Launch → Launch) : (s.modLaunch l f).pkgs = s.pkgs := rfl
@[simp] theorem State.modLaunch_fabric (s : State) (l : Nat) (f : Launch → Launch) : (s.modLaunch l f).fabric = s.fabric := rfl
@[simp] theorem State.modLaunch_star (s : State) (l : Nat) (f : Launch → Launch) : (s.modLaunch l f).star = s.star := rfl
@[simp] theorem State.modLaunch_free (s : State) (l : Nat) (f : Launch → Launch) : (s.modLaunch l f).free = s.free := rfl

/-! ### modLpkg -/

@[simp] theorem State.modLpkg_cur (s : State) (l p : Nat) (f : LPkg → LPkg) : (s.modLpkg l p f).cur = s.cur := rfl
@[simp] theorem State.modLpkg_agenda (s : State) (l p : Nat) (f : LPkg → LPkg) : (s.modLpkg l p f).agenda = s.agenda := rfl
@[simp] theorem State.modLpkg_pace (s : State) (l p : Nat) (f : LPkg → LPkg) : (s.modLpkg l p f).pace = s.pace := rfl
@[simp] theorem State.modLpkg_tasks (s : State) (l p : Nat) (f : LPkg → LPkg) : (s.modLpkg l p f).tasks = s.tasks := rfl
@[simp] theorem State.modLpkg_tiles (s : State) (l p : Nat) (f : LPkg → LPkg) : (s.modLpkg l p f).tiles = s.tiles := rfl
@[simp] theorem State.modLpkg_handlers (s : State) (l p : Nat) (f : LPkg → LPkg) : (s.modLpkg l p f).handlers = s.handlers := rfl
@[simp] theorem State.modLpkg_cmps (s : State) (l p : Nat) (f : LPkg → LPkg) : (s.modLpkg l p f).cmps = s.cmps := rfl
@[simp] theorem State.modLpkg_pkgs (s : State) (l p : Nat) (f : LPkg → LPkg) : (s.modLpkg l p f).pkgs = s.pkgs := rfl
@[simp] theorem State.modLpkg_fabric (s : State) (l p : Nat) (f : LPkg → LPkg) : (s.modLpkg l p f).fabric = s.fabric := rfl
@[simp] theorem State.modLpkg_star (s : State) (l p : Nat) (f : LPkg → LPkg) : (s.modLpkg l p f).star = s.star := rfl
@[simp] theorem State.modLpkg_free (s : State) (l p : Nat) (f : LPkg → LPkg) : (s.modLpkg l p f).free = s.free := rfl

/-! ### setPkg -/

@[simp] theorem State.setPkg_cur (s : State) (p : Nat) (x : Pkg) : (s.setPkg p x).cur = s.cur := rfl
@[simp] theorem State.setPkg_agenda (s : State) (p : Nat) (x : Pkg) : (s.setPkg p x).agenda = s.agenda := rfl
@[simp] theorem State.setPkg_pace (s : State) (p : Nat) (x : Pkg) : (s.setPkg p x).pace = s.pace := rfl
@[simp] theorem State.setPkg_tasks (s : State) (p : Nat) (x : Pkg) : (s.setPkg p x).tasks = s.tasks := rfl
@[simp] theorem State.setPkg_tiles (s : State) (p : Nat) (x : Pkg) : (s.setPkg p x).tiles = s.tiles := rfl
@[simp] theorem State.setPkg_launches (s : State) (p : Nat) (x : Pkg) : (s.setPkg p x).launches = s.launches := rfl
@[simp] theorem State.setPkg_handlers (s : State) (p : Nat) (x : Pkg) : (s.setPkg p x).handlers = s.handlers := rfl
@[simp] theorem State.setPkg_cmps (s : State) (p : Nat) (x : Pkg) : (s.setPkg p x).cmps = s.cmps := rfl
@[simp] theorem State.setPkg_fabric (s : State) (p : Nat) (x : Pkg) : (s.setPkg p x).fabric = s.fabric := rfl
@[simp] theorem State.setPkg_star (s : State) (p : Nat) (x : Pkg) : (s.setPkg p x).star = s.star := rfl
@[simp] theorem State.setPkg_free (s : State) (p : Nat) (x : Pkg) : (s.setPkg p x).free = s.free := rfl

/-! ### modPkg -/

@[simp] theorem State.modPkg_cur (s : State) (p : Nat) (f : Pkg → Pkg) : (s.modPkg p f).cur = s.cur := rfl
@[simp] theorem State.modPkg_agenda (s : State) (p : Nat) (f : Pkg → Pkg) : (s.modPkg p f).agenda = s.agenda := rfl
@[simp] theorem State.modPkg_pace (s : State) (p : Nat) (f : Pkg → Pkg) : (s.modPkg p f).pace = s.pace := rfl
@[simp] theorem State.modPkg_tasks (s : State) (p : Nat) (f : Pkg → Pkg) : (s.modPkg p f).tasks = s.tasks := rfl
@[simp] theorem State.modPkg_tiles (s : State) (p : Nat) (f : Pkg → Pkg) : (s.modPkg p f).tiles = s.tiles := rfl
@[simp] theorem State.modPkg_launches (s : State) (p : Nat) (f : Pkg → Pkg) : (s.modPkg p f).launches = s.launches := rfl
@[simp] theorem State.modPkg_handlers (s : State) (p : Nat) (f : Pkg → Pkg) : (s.modPkg p f).handlers = s.handlers := rfl
@[simp] theorem State.modPkg_cmps (s : State) (p : Nat) (f : Pkg → Pkg) : (s.modPkg p f).cmps = s.cmps := rfl
@[simp] theorem State.modPkg_fabric (s : State) (p : Nat) (f : Pkg → Pkg) : (s.modPkg p f).fabric = s.fabric := rfl
@[simp] theorem State.modPkg_star (s : State) (p : Nat) (f : Pkg → Pkg) : (s.modPkg p f).star = s.star := rfl
@[simp] theorem State.modPkg_free (s : State) (p : Nat) (f : Pkg → Pkg) : (s.modPkg p f).free = s.free := rfl

/-! ### modDom -/

@[simp] theorem State.modDom_cur (s : State) (p d : Nat) (f : Dom → Dom) : (s.modDom p d f).cur = s.cur := rfl
@[simp] theorem State.modDom_agenda (s : State) (p d : Nat) (f : Dom → Dom) : (s.modDom p d f).agenda = s.agenda := rfl
@[simp] theorem State.modDom_pace (s : State) (p d : Nat) (f : Dom → Dom) : (s.modDom p d f).pace = s.pace := rfl
@[simp] theorem State.modDom_tasks (s : State) (p d : Nat) (f : Dom → Dom) : (s.modDom p d f).tasks = s.tasks := rfl
@[simp] theorem State.modDom_tiles (s : State) (p d : Nat) (f : Dom → Dom) : (s.modDom p d f).tiles = s.tiles := rfl
@[simp] theorem State.modDom_launches (s : State) (p d : Nat) (f : Dom → Dom) : (s.modDom p d f).launches = s.launches := rfl
@[simp] theorem State.modDom_handlers (s : State) (p d : Nat) (f : Dom → Dom) : (s.modDom p d f).handlers = s.handlers := rfl
@[simp] theorem State.modDom_cmps (s : State) (p d : Nat) (f : Dom → Dom) : (s.modDom p d f).cmps = s.cmps := rfl
@[simp] theorem State.modDom_fabric (s : State) (p d : Nat) (f : Dom → Dom) : (s.modDom p d f).fabric = s.fabric := rfl
@[simp] theorem State.modDom_star (s : State) (p d : Nat) (f : Dom → Dom) : (s.modDom p d f).star = s.star := rfl
@[simp] theorem State.modDom_free (s : State) (p d : Nat) (f : Dom → Dom) : (s.modDom p d f).free = s.free := rfl

/-! ### modQueue -/

@[simp] theorem State.modQueue_cur (s : State) (p d q : Nat) (f : Queue → Queue) : (s.modQueue p d q f).cur = s.cur := rfl
@[simp] theorem State.modQueue_agenda (s : State) (p d q : Nat) (f : Queue → Queue) : (s.modQueue p d q f).agenda = s.agenda := rfl
@[simp] theorem State.modQueue_pace (s : State) (p d q : Nat) (f : Queue → Queue) : (s.modQueue p d q f).pace = s.pace := rfl
@[simp] theorem State.modQueue_tasks (s : State) (p d q : Nat) (f : Queue → Queue) : (s.modQueue p d q f).tasks = s.tasks := rfl
@[simp] theorem State.modQueue_tiles (s : State) (p d q : Nat) (f : Queue → Queue) : (s.modQueue p d q f).tiles = s.tiles := rfl
@[simp] theorem State.modQueue_launches (s : State) (p d q : Nat) (f : Queue → Queue) : (s.modQueue p d q f).launches = s.launches := rfl
@[simp] theorem State.modQueue_handlers (s : State) (p d q : Nat) (f : Queue → Queue) : (s.modQueue p d q f).handlers = s.handlers := rfl
@[simp] theorem State.modQueue_cmps (s : State) (p d q : Nat) (f : Queue → Queue) : (s.modQueue p d q f).cmps = s.cmps := rfl
@[simp] theorem State.modQueue_fabric (s : State) (p d q : Nat) (f : Queue → Queue) : (s.modQueue p d q f).fabric = s.fabric := rfl
@[simp] theorem State.modQueue_star (s : State) (p d q : Nat) (f : Queue → Queue) : (s.modQueue p d q f).star = s.star := rfl
@[simp] theorem State.modQueue_free (s : State) (p d q : Nat) (f : Queue → Queue) : (s.modQueue p d q f).free = s.free := rfl

/-! ### msi -/

@[simp] theorem State.msi_cur (s : State) (p v : Nat) : (s.msi p v).cur = s.cur := rfl
@[simp] theorem State.msi_agenda (s : State) (p v : Nat) : (s.msi p v).agenda = s.agenda := rfl
@[simp] theorem State.msi_pace (s : State) (p v : Nat) : (s.msi p v).pace = s.pace := rfl
@[simp] theorem State.msi_tasks (s : State) (p v : Nat) : (s.msi p v).tasks = s.tasks := rfl
@[simp] theorem State.msi_tiles (s : State) (p v : Nat) : (s.msi p v).tiles = s.tiles := rfl
@[simp] theorem State.msi_launches (s : State) (p v : Nat) : (s.msi p v).launches = s.launches := rfl
@[simp] theorem State.msi_handlers (s : State) (p v : Nat) : (s.msi p v).handlers = s.handlers := rfl
@[simp] theorem State.msi_cmps (s : State) (p v : Nat) : (s.msi p v).cmps = s.cmps := rfl
@[simp] theorem State.msi_fabric (s : State) (p v : Nat) : (s.msi p v).fabric = s.fabric := rfl
@[simp] theorem State.msi_star (s : State) (p v : Nat) : (s.msi p v).star = s.star := rfl
@[simp] theorem State.msi_free (s : State) (p v : Nat) : (s.msi p v).free = s.free := rfl

/-! ### setHandler -/

@[simp] theorem State.setHandler_cur (s : State) (p ph : Nat) (h : Handler) : (s.setHandler p ph h).cur = s.cur := rfl
@[simp] theorem State.setHandler_agenda (s : State) (p ph : Nat) (h : Handler) : (s.setHandler p ph h).agenda = s.agenda := rfl
@[simp] theorem State.setHandler_pace (s : State) (p ph : Nat) (h : Handler) : (s.setHandler p ph h).pace = s.pace := rfl
@[simp] theorem State.setHandler_tasks (s : State) (p ph : Nat) (h : Handler) : (s.setHandler p ph h).tasks = s.tasks := rfl
@[simp] theorem State.setHandler_tiles (s : State) (p ph : Nat) (h : Handler) : (s.setHandler p ph h).tiles = s.tiles := rfl
@[simp] theorem State.setHandler_launches (s : State) (p ph : Nat) (h : Handler) : (s.setHandler p ph h).launches = s.launches := rfl
@[simp] theorem State.setHandler_cmps (s : State) (p ph : Nat) (h : Handler) : (s.setHandler p ph h).cmps = s.cmps := rfl
@[simp] theorem State.setHandler_pkgs (s : State) (p ph : Nat) (h : Handler) : (s.setHandler p ph h).pkgs = s.pkgs := rfl
@[simp] theorem State.setHandler_fabric (s : State) (p ph : Nat) (h : Handler) : (s.setHandler p ph h).fabric = s.fabric := rfl
@[simp] theorem State.setHandler_star (s : State) (p ph : Nat) (h : Handler) : (s.setHandler p ph h).star = s.star := rfl
@[simp] theorem State.setHandler_free (s : State) (p ph : Nat) (h : Handler) : (s.setHandler p ph h).free = s.free := rfl

/-! ### setCmp -/

@[simp] theorem State.setCmp_cur (s : State) (p ph : Nat) (c : Cmps) : (s.setCmp p ph c).cur = s.cur := rfl
@[simp] theorem State.setCmp_agenda (s : State) (p ph : Nat) (c : Cmps) : (s.setCmp p ph c).agenda = s.agenda := rfl
@[simp] theorem State.setCmp_pace (s : State) (p ph : Nat) (c : Cmps) : (s.setCmp p ph c).pace = s.pace := rfl
@[simp] theorem State.setCmp_tasks (s : State) (p ph : Nat) (c : Cmps) : (s.setCmp p ph c).tasks = s.tasks := rfl
@[simp] theorem State.setCmp_tiles (s : State) (p ph : Nat) (c : Cmps) : (s.setCmp p ph c).tiles = s.tiles := rfl
@[simp] theorem State.setCmp_launches (s : State) (p ph : Nat) (c : Cmps) : (s.setCmp p ph c).launches = s.launches := rfl
@[simp] theorem State.setCmp_handlers (s : State) (p ph : Nat) (c : Cmps) : (s.setCmp p ph c).handlers = s.handlers := rfl
@[simp] theorem State.setCmp_pkgs (s : State) (p ph : Nat) (c : Cmps) : (s.setCmp p ph c).pkgs = s.pkgs := rfl
@[simp] theorem State.setCmp_fabric (s : State) (p ph : Nat) (c : Cmps) : (s.setCmp p ph c).fabric = s.fabric := rfl
@[simp] theorem State.setCmp_star (s : State) (p ph : Nat) (c : Cmps) : (s.setCmp p ph c).star = s.star := rfl
@[simp] theorem State.setCmp_free (s : State) (p ph : Nat) (c : Cmps) : (s.setCmp p ph c).free = s.free := rfl

/-! ### modBank -/

@[simp] theorem State.modBank_cur (s : State) (f : Bank → Bank) : (s.modBank f).cur = s.cur := rfl
@[simp] theorem State.modBank_agenda (s : State) (f : Bank → Bank) : (s.modBank f).agenda = s.agenda := rfl
@[simp] theorem State.modBank_pace (s : State) (f : Bank → Bank) : (s.modBank f).pace = s.pace := rfl
@[simp] theorem State.modBank_tiles (s : State) (f : Bank → Bank) : (s.modBank f).tiles = s.tiles := rfl
@[simp] theorem State.modBank_launches (s : State) (f : Bank → Bank) : (s.modBank f).launches = s.launches := rfl
@[simp] theorem State.modBank_handlers (s : State) (f : Bank → Bank) : (s.modBank f).handlers = s.handlers := rfl
@[simp] theorem State.modBank_cmps (s : State) (f : Bank → Bank) : (s.modBank f).cmps = s.cmps := rfl
@[simp] theorem State.modBank_pkgs (s : State) (f : Bank → Bank) : (s.modBank f).pkgs = s.pkgs := rfl
@[simp] theorem State.modBank_fabric (s : State) (f : Bank → Bank) : (s.modBank f).fabric = s.fabric := rfl
@[simp] theorem State.modBank_star (s : State) (f : Bank → Bank) : (s.modBank f).star = s.star := rfl
@[simp] theorem State.modBank_free (s : State) (f : Bank → Bank) : (s.modBank f).free = s.free := rfl

/-! ### wx -/

@[simp] theorem State.wx_cur (s : State) (r : Reg) (v : Word) : (s.wx r v).cur = s.cur := rfl
@[simp] theorem State.wx_agenda (s : State) (r : Reg) (v : Word) : (s.wx r v).agenda = s.agenda := rfl
@[simp] theorem State.wx_pace (s : State) (r : Reg) (v : Word) : (s.wx r v).pace = s.pace := rfl
@[simp] theorem State.wx_tiles (s : State) (r : Reg) (v : Word) : (s.wx r v).tiles = s.tiles := rfl
@[simp] theorem State.wx_launches (s : State) (r : Reg) (v : Word) : (s.wx r v).launches = s.launches := rfl
@[simp] theorem State.wx_handlers (s : State) (r : Reg) (v : Word) : (s.wx r v).handlers = s.handlers := rfl
@[simp] theorem State.wx_cmps (s : State) (r : Reg) (v : Word) : (s.wx r v).cmps = s.cmps := rfl
@[simp] theorem State.wx_pkgs (s : State) (r : Reg) (v : Word) : (s.wx r v).pkgs = s.pkgs := rfl
@[simp] theorem State.wx_fabric (s : State) (r : Reg) (v : Word) : (s.wx r v).fabric = s.fabric := rfl
@[simp] theorem State.wx_star (s : State) (r : Reg) (v : Word) : (s.wx r v).star = s.star := rfl
@[simp] theorem State.wx_free (s : State) (r : Reg) (v : Word) : (s.wx r v).free = s.free := rfl

/-! ### advSeq -/

@[simp] theorem State.advSeq_cur (s : State) : (s.advSeq).cur = s.cur := rfl
@[simp] theorem State.advSeq_agenda (s : State) : (s.advSeq).agenda = s.agenda := rfl
@[simp] theorem State.advSeq_pace (s : State) : (s.advSeq).pace = s.pace := rfl
@[simp] theorem State.advSeq_tiles (s : State) : (s.advSeq).tiles = s.tiles := rfl
@[simp] theorem State.advSeq_launches (s : State) : (s.advSeq).launches = s.launches := rfl
@[simp] theorem State.advSeq_handlers (s : State) : (s.advSeq).handlers = s.handlers := rfl
@[simp] theorem State.advSeq_cmps (s : State) : (s.advSeq).cmps = s.cmps := rfl
@[simp] theorem State.advSeq_pkgs (s : State) : (s.advSeq).pkgs = s.pkgs := rfl
@[simp] theorem State.advSeq_fabric (s : State) : (s.advSeq).fabric = s.fabric := rfl
@[simp] theorem State.advSeq_star (s : State) : (s.advSeq).star = s.star := rfl
@[simp] theorem State.advSeq_free (s : State) : (s.advSeq).free = s.free := rfl

/-! ### tick -/

@[simp] theorem State.tick_cur (s : State) : (s.tick).cur = s.cur := rfl
@[simp] theorem State.tick_agenda (s : State) : (s.tick).agenda = s.agenda := rfl
@[simp] theorem State.tick_pace (s : State) : (s.tick).pace = s.pace := rfl
@[simp] theorem State.tick_tasks (s : State) : (s.tick).tasks = s.tasks := rfl
@[simp] theorem State.tick_tiles (s : State) : (s.tick).tiles = s.tiles := rfl
@[simp] theorem State.tick_launches (s : State) : (s.tick).launches = s.launches := rfl
@[simp] theorem State.tick_handlers (s : State) : (s.tick).handlers = s.handlers := rfl
@[simp] theorem State.tick_cmps (s : State) : (s.tick).cmps = s.cmps := rfl
@[simp] theorem State.tick_pkgs (s : State) : (s.tick).pkgs = s.pkgs := rfl
@[simp] theorem State.tick_fabric (s : State) : (s.tick).fabric = s.fabric := rfl
@[simp] theorem State.tick_star (s : State) : (s.tick).star = s.star := rfl

/-! ### withdrawVote -/

@[simp] theorem State.withdrawVote_cur (s : State) (l p : Nat) : (s.withdrawVote l p).cur = s.cur := by
  unfold State.withdrawVote; split <;> rfl
@[simp] theorem State.withdrawVote_agenda (s : State) (l p : Nat) : (s.withdrawVote l p).agenda = s.agenda := by
  unfold State.withdrawVote; split <;> rfl
@[simp] theorem State.withdrawVote_pace (s : State) (l p : Nat) : (s.withdrawVote l p).pace = s.pace := by
  unfold State.withdrawVote; split <;> rfl
@[simp] theorem State.withdrawVote_tasks (s : State) (l p : Nat) : (s.withdrawVote l p).tasks = s.tasks := by
  unfold State.withdrawVote; split <;> rfl
@[simp] theorem State.withdrawVote_tiles (s : State) (l p : Nat) : (s.withdrawVote l p).tiles = s.tiles := by
  unfold State.withdrawVote; split <;> rfl
@[simp] theorem State.withdrawVote_handlers (s : State) (l p : Nat) : (s.withdrawVote l p).handlers = s.handlers := by
  unfold State.withdrawVote; split <;> rfl
@[simp] theorem State.withdrawVote_cmps (s : State) (l p : Nat) : (s.withdrawVote l p).cmps = s.cmps := by
  unfold State.withdrawVote; split <;> rfl
@[simp] theorem State.withdrawVote_fabric (s : State) (l p : Nat) : (s.withdrawVote l p).fabric = s.fabric := by
  unfold State.withdrawVote; split <;> rfl
@[simp] theorem State.withdrawVote_star (s : State) (l p : Nat) : (s.withdrawVote l p).star = s.star := by
  unfold State.withdrawVote; split <;> rfl
@[simp] theorem State.withdrawVote_free (s : State) (l p : Nat) : (s.withdrawVote l p).free = s.free := by
  unfold State.withdrawVote; split <;> rfl

/-- A package that has not voted has no vote to withdraw. -/
theorem State.withdrawVote_of_unvoted {s : State} {l p : Nat} (h : (s.lpkg l p).phase ≠ .voted) (h' : (s.lpkg l p).phase ≠ .sent) :
    s.withdrawVote l p = s := by
  unfold State.withdrawVote; split <;> simp_all

/-! ### raiseB -/

@[simp] theorem State.raiseB_cur (s : State) (l p c : Nat) : (s.raiseB l p c).cur = s.cur := by
  unfold State.raiseB; split <;> simp
@[simp] theorem State.raiseB_agenda (s : State) (l p c : Nat) : (s.raiseB l p c).agenda = s.agenda := by
  unfold State.raiseB; split <;> simp
@[simp] theorem State.raiseB_pace (s : State) (l p c : Nat) : (s.raiseB l p c).pace = s.pace := by
  unfold State.raiseB; split <;> simp
@[simp] theorem State.raiseB_tasks (s : State) (l p c : Nat) : (s.raiseB l p c).tasks = s.tasks := by
  unfold State.raiseB; split <;> simp
@[simp] theorem State.raiseB_tiles (s : State) (l p c : Nat) : (s.raiseB l p c).tiles = s.tiles := by
  unfold State.raiseB; split <;> simp
@[simp] theorem State.raiseB_handlers (s : State) (l p c : Nat) : (s.raiseB l p c).handlers = s.handlers := by
  unfold State.raiseB; split <;> simp
@[simp] theorem State.raiseB_cmps (s : State) (l p c : Nat) : (s.raiseB l p c).cmps = s.cmps := by
  unfold State.raiseB; split <;> simp
@[simp] theorem State.raiseB_fabric (s : State) (l p c : Nat) : (s.raiseB l p c).fabric = s.fabric := by
  unfold State.raiseB; split <;> simp
@[simp] theorem State.raiseB_star (s : State) (l p c : Nat) : (s.raiseB l p c).star = s.star := by
  unfold State.raiseB; split <;> simp
@[simp] theorem State.raiseB_free (s : State) (l p c : Nat) : (s.raiseB l p c).free = s.free := by
  unfold State.raiseB; split <;> simp

/-- What raising a cause does on a package that has not voted: nothing but the mark of the cause. -/
theorem State.raiseB_unvoted {s : State} {l p c : Nat} (h : (s.lpkg l p).phase ≠ .voted) (h' : (s.lpkg l p).phase ≠ .sent) :
    s.raiseB l p c = if s.outcome l p == .open then
      s.modLpkg l p fun x => { x with causes := if x.causes.contains c then x.causes else x.causes ++ [c] } else s := by
  unfold State.raiseB; rw [s.withdrawVote_of_unvoted h h']

theorem State.raiseB_pkgs_unvoted {s : State} {l p c : Nat} (h : (s.lpkg l p).phase ≠ .voted) (h' : (s.lpkg l p).phase ≠ .sent) :
    (s.raiseB l p c).pkgs = s.pkgs := by
  rw [s.raiseB_unvoted h h']; split <;> rfl

/-! ### Reading a table after an update -/

@[simp] theorem State.task_setTask (s : State) (k : Slot) (t : Task) : (s.setTask k t).task k = t := Tab.get_put_same _ _ _ _
theorem State.task_setTask_ne (s : State) {k j : Slot} (t : Task) (h : j ≠ k) : (s.setTask k t).task j = s.task j := Tab.get_put_other _ _ _ h
@[simp] theorem State.task_modTask (s : State) (k : Slot) (f : Task → Task) : (s.modTask k f).task k = f (s.task k) := Tab.get_put_same _ _ _ _
theorem State.task_modTask_ne (s : State) {k j : Slot} (f : Task → Task) (h : j ≠ k) : (s.modTask k f).task j = s.task j :=
  Tab.get_put_other _ _ _ h
@[simp] theorem State.tile_modTile (s : State) (l t : Nat) (f : Tile → Tile) : (s.modTile l t f).tile l t = f (s.tile l t) :=
  Tab.get_put_same _ _ _ _
theorem State.tile_modTile_ne (s : State) {l t m u : Nat} (f : Tile → Tile) (h : (m, u) ≠ (l, t)) : (s.modTile l t f).tile m u = s.tile m u :=
  Tab.get_put_other _ _ _ h
@[simp] theorem State.launch_modLaunch (s : State) (l : Nat) (f : Launch → Launch) : (s.modLaunch l f).launch l = f (s.launch l) :=
  Tab.get_put_same _ _ _ _
theorem State.launch_modLaunch_ne (s : State) {l m : Nat} (f : Launch → Launch) (h : m ≠ l) : (s.modLaunch l f).launch m = s.launch m :=
  Tab.get_put_other _ _ _ h
@[simp] theorem State.pkg_modPkg (s : State) (p : Nat) (f : Pkg → Pkg) : (s.modPkg p f).pkg p = f (s.pkg p) := Tab.get_put_same _ _ _ _
theorem State.pkg_modPkg_ne (s : State) {p q : Nat} (f : Pkg → Pkg) (h : q ≠ p) : (s.modPkg p f).pkg q = s.pkg q := Tab.get_put_other _ _ _ h
@[simp] theorem State.handler_setHandler (s : State) (p ph : Nat) (h : Handler) : (s.setHandler p ph h).handler p ph = h :=
  Tab.get_put_same _ _ _ _
@[simp] theorem State.cmp_setCmp (s : State) (p ph : Nat) (c : Cmps) : (s.setCmp p ph c).cmp p ph = c := Tab.get_put_same _ _ _ _

/-! ### The shadow pools -/

@[simp] theorem Pkg.pool_modPool (x : Pkg) (d : Nat) (f : Pool → Pool) : (x.modPool d f).pool d = f (x.pool d) := by
  simp [Pkg.pool, Pkg.modPool]

/-- A change of one domain's pool leaves every other domain's as it is (R367). -/
theorem Pkg.pool_modPool_ne (x : Pkg) {d e : Nat} (f : Pool → Pool) (h : e % 4 ≠ d % 4) : (x.modPool d f).pool e = x.pool e := by
  simp [Pkg.pool, Pkg.modPool, Vector.getElem_set_ne, Ne.symm h]

@[simp] theorem Pkg.pool_mapPools (x : Pkg) (d : Nat) (f : Pool → Pool) : (x.mapPools f).pool d = f (x.pool d) := by
  have h : d % 4 = 0 ∨ d % 4 = 1 ∨ d % 4 = 2 ∨ d % 4 = 3 := by omega
  unfold Pkg.pool Pkg.mapPools
  rcases h with h | h | h | h <;> simp [h, Pkg.pool]

@[simp] theorem Pkg.modPool_doms (x : Pkg) (d : Nat) (f : Pool → Pool) : (x.modPool d f).doms = x.doms := rfl
@[simp] theorem Pkg.modPool_hbm (x : Pkg) (d : Nat) (f : Pool → Pool) : (x.modPool d f).hbm = x.hbm := rfl
@[simp] theorem Pkg.modPool_regions (x : Pkg) (d : Nat) (f : Pool → Pool) : (x.modPool d f).regions = x.regions := rfl
@[simp] theorem Pkg.mapPools_doms (x : Pkg) (f : Pool → Pool) : (x.mapPools f).doms = x.doms := rfl
@[simp] theorem Pkg.mapPools_hbm (x : Pkg) (f : Pool → Pool) : (x.mapPools f).hbm = x.hbm := rfl
@[simp] theorem Pkg.mapPools_regions (x : Pkg) (f : Pool → Pool) : (x.mapPools f).regions = x.regions := rfl

@[simp] theorem Pool.resize_size (q : Pool) (n : Nat) : (q.resize n).size = min n 0x200000 := rfl
@[simp] theorem Pool.resize_used (q : Pool) (n : Nat) : (q.resize n).used = q.used := rfl
@[simp] theorem Pool.resize_releasing (q : Pool) (n : Nat) : (q.resize n).releasing = q.releasing := rfl
@[simp] theorem Pool.give_size (q : Pool) (n : Nat) : (q.give n).size = q.size := rfl
@[simp] theorem Pool.give_used (q : Pool) (n : Nat) : (q.give n).used = q.used - 1 := rfl
@[simp] theorem Pool.give_releasing (q : Pool) (n : Nat) : (q.give n).releasing = q.releasing := rfl
@[simp] theorem Pool.flip_size (q : Pool) (n : Nat) : (q.flip n).size = q.size := rfl
@[simp] theorem Pool.flip_used (q : Pool) (n : Nat) : (q.flip n).used = q.used := rfl
@[simp] theorem Pool.flip_free (q : Pool) (n : Nat) : (q.flip n).free = q.free := rfl
@[simp] theorem Pool.flip_releasing (q : Pool) (n : Nat) : (q.flip n).releasing = q.releasing := rfl
@[simp] theorem Pool.recall_size (q : Pool) (n : Nat) : (q.recall n).size = q.size := rfl
@[simp] theorem Pool.recall_used (q : Pool) (n : Nat) : (q.recall n).used = q.used := rfl
@[simp] theorem Pool.recall_out (q : Pool) (n : Nat) : (q.recall n).out = q.out := rfl

/-- A page that has flipped is a shadow no longer. -/
theorem Pool.not_out_flip (q : Pool) (n l k : Nat) : (n, l, k) ∉ (q.flip n).out := by simp [Pool.flip]

/-- A pool has no page to give exactly when as many are in use as it holds. -/
theorem Pool.take_eq_none (q : Pool) (l k : Nat) : q.take l k = none ↔ q.size ≤ q.used := by
  unfold Pool.take
  split
  · simp [*]
  · split <;> simp [*]

/-- What taking a page does: the page is one that was returned or the next that was never used, it is out for the launch's
superstep, and one more is in use. -/
theorem Pool.take_eq_some {q r : Pool} {n l k : Nat} (h : q.take l k = some (n, r)) :
    q.used < q.size ∧ r.size = q.size ∧ r.used = q.used + 1 ∧ r.releasing = q.releasing ∧ r.out = q.out ++ [(n, l, k)] ∧
      (q.free = n :: r.free ∧ r.next = q.next ∨ q.free = [] ∧ r.free = [] ∧ n = q.next ∧ r.next = q.next + 1) := by
  unfold Pool.take at h
  split at h
  · cases h
  · rename_i hu
    split at h <;> rename_i hf <;> cases h <;> simp [hf] <;> omega

/-! ### The issuing slot's registers -/

@[simp] theorem State.bank_modBank (s : State) (f : Bank → Bank) : (s.modBank f).bank = f s.bank := by
  simp [State.bank, State.modBank]

@[simp] theorem Bank.rx_zero (b : Bank) : b.rx 0 = 0 := rfl

theorem Bank.rx_wx (b : Bank) (r q : Reg) (v : Word) : (b.wx r v).rx q = if q = 0 then 0 else if q = r then v else b.rx q := by
  unfold Bank.rx Bank.wx
  have place : r.toNat = q.toNat ↔ q = r := ⟨fun e => (BitVec.eq_of_toNat_eq e).symm, fun e => by rw [e]⟩
  by_cases zero : q = 0 <;> by_cases discards : r = 0 <;> simp_all [Vector.getElem_set]

@[simp] theorem Bank.rv_wv (b : Bank) (r : Reg) (v : Vec) : (b.wv r v).rv r = v := by simp [Bank.rv, Bank.wv]

theorem Bank.rv_wv_ne (b : Bank) {r q : Reg} (v : Vec) (h : q ≠ r) : (b.wv r v).rv q = b.rv q := by
  have h' : r.toNat ≠ q.toNat := fun e => h (BitVec.eq_of_toNat_eq e.symm)
  simp [Bank.rv, Bank.wv, Vector.getElem_set_ne, h']

end Sys2Proof.Machine
end

