-- ==== Sys2Proof/Laws/Ops.lean ====
section
/-!
SUPPORT. What the shared operations do: issuing an instruction word, taking a class A trap, an event.
-/

namespace Sys2Proof.Machine

open Sys2Proof

/-- An event of the part that names existing objects has its effect. -/
theorem event_next (s : State) (f : State → State) : event true s f = .next (f s) := rfl

theorem event_fault (s : State) (f : State → State) : event false s f = .fault .noSuchObject := rfl

theorem event_completes {ok : Bool} (h : ok = true) (s : State) (f : State → State) : event ok s f = .next (f s) := by rw [h]; rfl

/-- A next state is an answer. -/
theorem completes_next (t : State) : Completes (.next t) := ⟨t, rfl⟩

/-- An issued word answers a next state: every check of its issue ends in one. -/
theorem issue_completes (i : Instr) (s : State) (body : State → Act) : Completes (issue i s body) := by
  unfold issue
  dsimp only
  repeat' first
    | exact completes_next _
    | split

theorem worstRead_nil : worstRead [] = none := rfl

theorem State.withOld_nil (s : State) : s.withOld [] = s := rfl

/-- What `readyFor` says, part by part. -/
theorem State.readyFor_iff (s : State) (i : Instr) : s.readyFor i = true ↔
    s.canIssue s.cur = true ∧ s.matWait i = false ∧ legal s.inHandler s.accs i = true ∧ ((s.task s.cur).rep.isSome = true ∨ s.cmpMatch none = none) ∧
      interlocked (s.task s.cur) i = false ∧
        (s.inHandler = true ∨ (s.sfuBusy i = false ∧ shortReads (s.task s.cur) i = [])) := by
  simp [State.readyFor, and_assoc]

/-- A ready word runs its body. -/
theorem issue_ready {i : Instr} {s : State} (h : s.readyFor i = true) (body : State → Act) :
    issue i s body = .next (s.runBody i [] body) := by
  obtain ⟨h1, h0, h2, h3, h4, h5⟩ := (s.readyFor_iff i).mp h
  have hc : (if (s.task s.cur).rep.isSome = true then none else s.cmpMatch none) = none := by
    rcases h3 with h3 | h3 <;> simp [h3]
  have hb : (interlocked (s.task s.cur) i || (!s.inHandler && s.sfuBusy i)) = false := by
    rcases h5 with h5 | h5 <;> simp [h4, h5]
  have hs : (if s.inHandler = true then [] else shortReads (s.task s.cur) i) = [] := by
    rcases h5 with h5 | h5 <;> simp [h5]
  unfold issue
  simp only [h1, h0, h2, hc, hb, hs, worstRead_nil, Bool.not_true, Bool.or_false, Bool.false_eq_true, if_false]
  split <;> first | rfl | (rename_i h; exact absurd h (by simp))

/-- What completing an instruction does. -/
theorem retire_retired (s s1 : State) (i : Instr) (dst : Option Word) : Retired s s1 (s.retire s1 i [] dst) dst := by
  constructor
  · unfold State.retire
    simp only [List.foldl_nil]
    rfl
  · intro k hk
    unfold State.retire
    simp only [List.foldl_nil]
    exact State.task_setTask_ne _ _ hk
  all_goals
    unfold State.retire
    simp only [List.foldl_nil, State.task_setTask]
  unfold Task.moved
  generalize (s.task s.cur).rep = r
  rcases r with _ | ⟨rem, it⟩
  · cases dst <;> rfl
  · dsimp only
    split <;> rfl

/-- A ready word whose body has an effect completes with it. -/
theorem issue_done {i : Instr} {s s1 : State} {body : State → Act} (h : s.readyFor i = true) (hb : body s = .done s1) :
    ∃ t, issue i s body = .next t ∧ Retired s s1 t none :=
  ⟨_, issue_ready h body, by simpa [State.runBody, State.withOld_nil, hb] using retire_retired s s1 i none⟩

/-- A ready word whose body jumps completes at the target. -/
theorem issue_jump {i : Instr} {s s1 : State} {a : Word} {body : State → Act} (h : s.readyFor i = true) (hb : body s = .jump s1 a) :
    ∃ t, issue i s body = .next t ∧ Retired s s1 t (some a) :=
  ⟨_, issue_ready h body, by simpa [State.runBody, State.withOld_nil, hb] using retire_retired s s1 i (some a)⟩

/-- A ready word whose body traps takes the trap and nothing else. -/
theorem issue_trap {i : Instr} {s : State} {c : BitVec 8} {v : Word} {body : State → Act} (h : s.readyFor i = true)
    (hb : body s = .trap c v) : issue i s body = .next (takeTrap s c v none) := by
  rw [issue_ready h body]
  simp [State.runBody, State.withOld_nil, hb]

/-- A ready word whose body must wait changes nothing of the machine. -/
theorem issue_wait {i : Instr} {s : State} {body : State → Act} (h : s.readyFor i = true) (hb : body s = .wait) :
    issue i s body = .next s.notReady := by
  rw [issue_ready h body]
  simp [State.runBody, State.withOld_nil, hb]

end Sys2Proof.Machine
end

