-- ==== Sys2Proof/Laws/PerInstr.lean ====
section
/-!
SUPPORT. One lemma per constructor of `Instr`: the row is a word, whose two low bits are 11 (R124, R125), or an event without a word.
-/

namespace Sys2Proof.Laws

open Sys2Proof Sys2Proof.Machine

/-- A row of the opcode table is a word, whose two low bits are 11 unless it is the word of no instruction, or an event. -/
def WordOrEvent.Statement (i : Instr) : Prop :=
  match encode i with
  | some w => (w.toNat % 4 = 3 ∨ i = .illegalInstruction w) ∧ isEvent i = false
  | none => isEvent i = true

theorem WordOrEvent.ofWord {i : Instr} {w : IWord} (h : encode i = some w) (hw : w.toNat % 4 = 3) : WordOrEvent.Statement i := by
  simp [WordOrEvent.Statement, isEvent, h, hw]

theorem WordOrEvent.illegalInstruction (w : IWord) : WordOrEvent.Statement (.illegalInstruction w) := by
  have h : encode (.illegalInstruction w) = some w := rfl
  simp [WordOrEvent.Statement, isEvent, h]

theorem fence_low (fm p s : BitVec 4) :
    (BitVec.ofNat 32 (0x0F + s.toNat * 2 ^ 20 + p.toNat * 2 ^ 24 + fm.toNat * 2 ^ 28)).toNat % 4 = 3 := by
  simp only [BitVec.toNat_ofNat]; omega

theorem rep_low (n : BitVec 6) (m t : BitVec 3) :
    (BitVec.ofNat 32 (0x0B + 5 * 2 ^ 12 + t.toNat * 2 ^ 20 + m.toNat * 2 ^ 23 + n.toNat * 2 ^ 26)).toNat % 4 = 3 := by
  simp only [BitVec.toNat_ofNat]; omega

theorem WordOrEvent.ofEvent {i : Instr} (h : encode i = none) : WordOrEvent.Statement i := by
  simp [WordOrEvent.Statement, isEvent, h]

theorem encR_low (op f3 f7 : Nat) (rd rs1 rs2 : Reg) (h : op % 4 = 3) : (encR op f3 f7 rd rs1 rs2).toNat % 4 = 3 := by
  simp only [encR, BitVec.toNat_ofNat]; omega

theorem encI_low (op f3 : Nat) (rd rs1 : Reg) (imm : BitVec 12) (h : op % 4 = 3) : (encI op f3 rd rs1 imm).toNat % 4 = 3 := by
  simp only [encI, BitVec.toNat_ofNat]; omega

theorem encS_low (op f3 : Nat) (rs2 rs1 : Reg) (imm : BitVec 12) (h : op % 4 = 3) : (encS op f3 rs2 rs1 imm).toNat % 4 = 3 := by
  simp only [encS, BitVec.toNat_ofNat]; omega

theorem encB_low (op f3 : Nat) (rs1 rs2 : Reg) (imm : BitVec 12) (h : op % 4 = 3) : (encB op f3 rs1 rs2 imm).toNat % 4 = 3 := by
  simp only [encB, BitVec.toNat_ofNat]; omega

theorem encU_low (op : Nat) (rd : Reg) (imm : BitVec 20) (h : op % 4 = 3) : (encU op rd imm).toNat % 4 = 3 := by
  simp only [encU, BitVec.toNat_ofNat]; omega

theorem encJ_low (op : Nat) (rd : Reg) (imm : BitVec 20) (h : op % 4 = 3) : (encJ op rd imm).toNat % 4 = 3 := by
  simp only [encJ, BitVec.toNat_ofNat]; omega

theorem encSh_low (op f3 top : Nat) (rd rs1 : Reg) (sh : BitVec 6) (h : op % 4 = 3) : (encSh op f3 top rd rs1 sh).toNat % 4 = 3 := by
  simp only [encSh, BitVec.toNat_ofNat]; omega

theorem encVm_low (vmop : Nat) (vd rs1 rs2 : Reg) (pg : Pg) : (encVm vmop vd rs1 rs2 pg).toNat % 4 = 3 := by
  simp only [encVm, BitVec.toNat_ofNat]; omega

theorem encVr_low (vop6 es vd vs1 vs2 pg : Nat) : (encVr vop6 es vd vs1 vs2 pg).toNat % 4 = 3 := by
  simp only [encVr, BitVec.toNat_ofNat]; omega

theorem encVi_low (iop es : Nat) (vd : Reg) (imm : BitVec 16) : (encVi iop es vd imm).toNat % 4 = 3 := by
  simp only [encVi, BitVec.toNat_ofNat]; omega

theorem encM_low (f3 f7 rd rs1 rs2 : Nat) : (encM f3 f7 rd rs1 rs2).toNat % 4 = 3 := by
  simp only [encM, BitVec.toNat_ofNat]; omega

theorem WordOrEvent.lui (rd : Reg) (imm : BitVec 20) : WordOrEvent.Statement (.lui rd imm) := WordOrEvent.ofWord rfl (encU_low _ _ _ rfl)
theorem WordOrEvent.auipc (rd : Reg) (imm : BitVec 20) : WordOrEvent.Statement (.auipc rd imm) := WordOrEvent.ofWord rfl (encU_low _ _ _ rfl)
theorem WordOrEvent.jal (rd : Reg) (imm : BitVec 20) : WordOrEvent.Statement (.jal rd imm) := WordOrEvent.ofWord rfl (encJ_low _ _ _ rfl)
theorem WordOrEvent.jalr (rd rs1 : Reg) (imm : BitVec 12) : WordOrEvent.Statement (.jalr rd rs1 imm) := WordOrEvent.ofWord rfl (encI_low _ _ _ _ _ rfl)
theorem WordOrEvent.beq (rs1 rs2 : Reg) (imm : BitVec 12) : WordOrEvent.Statement (.beq rs1 rs2 imm) := WordOrEvent.ofWord rfl (encB_low _ _ _ _ _ rfl)
theorem WordOrEvent.bne (rs1 rs2 : Reg) (imm : BitVec 12) : WordOrEvent.Statement (.bne rs1 rs2 imm) := WordOrEvent.ofWord rfl (encB_low _ _ _ _ _ rfl)
theorem WordOrEvent.blt (rs1 rs2 : Reg) (imm : BitVec 12) : WordOrEvent.Statement (.blt rs1 rs2 imm) := WordOrEvent.ofWord rfl (encB_low _ _ _ _ _ rfl)
theorem WordOrEvent.bge (rs1 rs2 : Reg) (imm : BitVec 12) : WordOrEvent.Statement (.bge rs1 rs2 imm) := WordOrEvent.ofWord rfl (encB_low _ _ _ _ _ rfl)
theorem WordOrEvent.bltu (rs1 rs2 : Reg) (imm : BitVec 12) : WordOrEvent.Statement (.bltu rs1 rs2 imm) := WordOrEvent.ofWord rfl (encB_low _ _ _ _ _ rfl)
theorem WordOrEvent.bgeu (rs1 rs2 : Reg) (imm : BitVec 12) : WordOrEvent.Statement (.bgeu rs1 rs2 imm) := WordOrEvent.ofWord rfl (encB_low _ _ _ _ _ rfl)
theorem WordOrEvent.lb (rd rs1 : Reg) (imm : BitVec 12) : WordOrEvent.Statement (.lb rd rs1 imm) := WordOrEvent.ofWord rfl (encI_low _ _ _ _ _ rfl)
theorem WordOrEvent.lh (rd rs1 : Reg) (imm : BitVec 12) : WordOrEvent.Statement (.lh rd rs1 imm) := WordOrEvent.ofWord rfl (encI_low _ _ _ _ _ rfl)
theorem WordOrEvent.lw (rd rs1 : Reg) (imm : BitVec 12) : WordOrEvent.Statement (.lw rd rs1 imm) := WordOrEvent.ofWord rfl (encI_low _ _ _ _ _ rfl)
theorem WordOrEvent.ld (rd rs1 : Reg) (imm : BitVec 12) : WordOrEvent.Statement (.ld rd rs1 imm) := WordOrEvent.ofWord rfl (encI_low _ _ _ _ _ rfl)
theorem WordOrEvent.lbu (rd rs1 : Reg) (imm : BitVec 12) : WordOrEvent.Statement (.lbu rd rs1 imm) := WordOrEvent.ofWord rfl (encI_low _ _ _ _ _ rfl)
theorem WordOrEvent.lhu (rd rs1 : Reg) (imm : BitVec 12) : WordOrEvent.Statement (.lhu rd rs1 imm) := WordOrEvent.ofWord rfl (encI_low _ _ _ _ _ rfl)
theorem WordOrEvent.lwu (rd rs1 : Reg) (imm : BitVec 12) : WordOrEvent.Statement (.lwu rd rs1 imm) := WordOrEvent.ofWord rfl (encI_low _ _ _ _ _ rfl)
theorem WordOrEvent.sb (rs2 rs1 : Reg) (imm : BitVec 12) : WordOrEvent.Statement (.sb rs2 rs1 imm) := WordOrEvent.ofWord rfl (encS_low _ _ _ _ _ rfl)
theorem WordOrEvent.sh (rs2 rs1 : Reg) (imm : BitVec 12) : WordOrEvent.Statement (.sh rs2 rs1 imm) := WordOrEvent.ofWord rfl (encS_low _ _ _ _ _ rfl)
theorem WordOrEvent.sw (rs2 rs1 : Reg) (imm : BitVec 12) : WordOrEvent.Statement (.sw rs2 rs1 imm) := WordOrEvent.ofWord rfl (encS_low _ _ _ _ _ rfl)
theorem WordOrEvent.sd (rs2 rs1 : Reg) (imm : BitVec 12) : WordOrEvent.Statement (.sd rs2 rs1 imm) := WordOrEvent.ofWord rfl (encS_low _ _ _ _ _ rfl)
theorem WordOrEvent.addi (rd rs1 : Reg) (imm : BitVec 12) : WordOrEvent.Statement (.addi rd rs1 imm) := WordOrEvent.ofWord rfl (encI_low _ _ _ _ _ rfl)
theorem WordOrEvent.slti (rd rs1 : Reg) (imm : BitVec 12) : WordOrEvent.Statement (.slti rd rs1 imm) := WordOrEvent.ofWord rfl (encI_low _ _ _ _ _ rfl)
theorem WordOrEvent.sltiu (rd rs1 : Reg) (imm : BitVec 12) : WordOrEvent.Statement (.sltiu rd rs1 imm) := WordOrEvent.ofWord rfl (encI_low _ _ _ _ _ rfl)
theorem WordOrEvent.xori (rd rs1 : Reg) (imm : BitVec 12) : WordOrEvent.Statement (.xori rd rs1 imm) := WordOrEvent.ofWord rfl (encI_low _ _ _ _ _ rfl)
theorem WordOrEvent.ori (rd rs1 : Reg) (imm : BitVec 12) : WordOrEvent.Statement (.ori rd rs1 imm) := WordOrEvent.ofWord rfl (encI_low _ _ _ _ _ rfl)
theorem WordOrEvent.andi (rd rs1 : Reg) (imm : BitVec 12) : WordOrEvent.Statement (.andi rd rs1 imm) := WordOrEvent.ofWord rfl (encI_low _ _ _ _ _ rfl)
theorem WordOrEvent.slli (rd rs1 : Reg) (sh : BitVec 6) : WordOrEvent.Statement (.slli rd rs1 sh) := WordOrEvent.ofWord rfl (encSh_low _ _ _ _ _ _ rfl)
theorem WordOrEvent.srli (rd rs1 : Reg) (sh : BitVec 6) : WordOrEvent.Statement (.srli rd rs1 sh) := WordOrEvent.ofWord rfl (encSh_low _ _ _ _ _ _ rfl)
theorem WordOrEvent.srai (rd rs1 : Reg) (sh : BitVec 6) : WordOrEvent.Statement (.srai rd rs1 sh) := WordOrEvent.ofWord rfl (encSh_low _ _ _ _ _ _ rfl)
theorem WordOrEvent.addiw (rd rs1 : Reg) (imm : BitVec 12) : WordOrEvent.Statement (.addiw rd rs1 imm) := WordOrEvent.ofWord rfl (encI_low _ _ _ _ _ rfl)
theorem WordOrEvent.slliw (rd rs1 : Reg) (sh : BitVec 5) : WordOrEvent.Statement (.slliw rd rs1 sh) := WordOrEvent.ofWord rfl (encR_low _ _ _ _ _ _ rfl)
theorem WordOrEvent.srliw (rd rs1 : Reg) (sh : BitVec 5) : WordOrEvent.Statement (.srliw rd rs1 sh) := WordOrEvent.ofWord rfl (encR_low _ _ _ _ _ _ rfl)
theorem WordOrEvent.sraiw (rd rs1 : Reg) (sh : BitVec 5) : WordOrEvent.Statement (.sraiw rd rs1 sh) := WordOrEvent.ofWord rfl (encR_low _ _ _ _ _ _ rfl)
theorem WordOrEvent.add (rd rs1 rs2 : Reg) : WordOrEvent.Statement (.add rd rs1 rs2) := WordOrEvent.ofWord rfl (encR_low _ _ _ _ _ _ rfl)
theorem WordOrEvent.sub (rd rs1 rs2 : Reg) : WordOrEvent.Statement (.sub rd rs1 rs2) := WordOrEvent.ofWord rfl (encR_low _ _ _ _ _ _ rfl)
theorem WordOrEvent.sll (rd rs1 rs2 : Reg) : WordOrEvent.Statement (.sll rd rs1 rs2) := WordOrEvent.ofWord rfl (encR_low _ _ _ _ _ _ rfl)
theorem WordOrEvent.slt (rd rs1 rs2 : Reg) : WordOrEvent.Statement (.slt rd rs1 rs2) := WordOrEvent.ofWord rfl (encR_low _ _ _ _ _ _ rfl)
theorem WordOrEvent.sltu (rd rs1 rs2 : Reg) : WordOrEvent.Statement (.sltu rd rs1 rs2) := WordOrEvent.ofWord rfl (encR_low _ _ _ _ _ _ rfl)
theorem WordOrEvent.xor (rd rs1 rs2 : Reg) : WordOrEvent.Statement (.xor rd rs1 rs2) := WordOrEvent.ofWord rfl (encR_low _ _ _ _ _ _ rfl)
theorem WordOrEvent.srl (rd rs1 rs2 : Reg) : WordOrEvent.Statement (.srl rd rs1 rs2) := WordOrEvent.ofWord rfl (encR_low _ _ _ _ _ _ rfl)
theorem WordOrEvent.sra (rd rs1 rs2 : Reg) : WordOrEvent.Statement (.sra rd rs1 rs2) := WordOrEvent.ofWord rfl (encR_low _ _ _ _ _ _ rfl)
theorem WordOrEvent.or (rd rs1 rs2 : Reg) : WordOrEvent.Statement (.or rd rs1 rs2) := WordOrEvent.ofWord rfl (encR_low _ _ _ _ _ _ rfl)
theorem WordOrEvent.and (rd rs1 rs2 : Reg) : WordOrEvent.Statement (.and rd rs1 rs2) := WordOrEvent.ofWord rfl (encR_low _ _ _ _ _ _ rfl)
theorem WordOrEvent.addw (rd rs1 rs2 : Reg) : WordOrEvent.Statement (.addw rd rs1 rs2) := WordOrEvent.ofWord rfl (encR_low _ _ _ _ _ _ rfl)
theorem WordOrEvent.subw (rd rs1 rs2 : Reg) : WordOrEvent.Statement (.subw rd rs1 rs2) := WordOrEvent.ofWord rfl (encR_low _ _ _ _ _ _ rfl)
theorem WordOrEvent.sllw (rd rs1 rs2 : Reg) : WordOrEvent.Statement (.sllw rd rs1 rs2) := WordOrEvent.ofWord rfl (encR_low _ _ _ _ _ _ rfl)
theorem WordOrEvent.srlw (rd rs1 rs2 : Reg) : WordOrEvent.Statement (.srlw rd rs1 rs2) := WordOrEvent.ofWord rfl (encR_low _ _ _ _ _ _ rfl)
theorem WordOrEvent.sraw (rd rs1 rs2 : Reg) : WordOrEvent.Statement (.sraw rd rs1 rs2) := WordOrEvent.ofWord rfl (encR_low _ _ _ _ _ _ rfl)
theorem WordOrEvent.mul (rd rs1 rs2 : Reg) : WordOrEvent.Statement (.mul rd rs1 rs2) := WordOrEvent.ofWord rfl (encR_low _ _ _ _ _ _ rfl)
theorem WordOrEvent.mulh (rd rs1 rs2 : Reg) : WordOrEvent.Statement (.mulh rd rs1 rs2) := WordOrEvent.ofWord rfl (encR_low _ _ _ _ _ _ rfl)
theorem WordOrEvent.mulhsu (rd rs1 rs2 : Reg) : WordOrEvent.Statement (.mulhsu rd rs1 rs2) := WordOrEvent.ofWord rfl (encR_low _ _ _ _ _ _ rfl)
theorem WordOrEvent.mulhu (rd rs1 rs2 : Reg) : WordOrEvent.Statement (.mulhu rd rs1 rs2) := WordOrEvent.ofWord rfl (encR_low _ _ _ _ _ _ rfl)
theorem WordOrEvent.div (rd rs1 rs2 : Reg) : WordOrEvent.Statement (.div rd rs1 rs2) := WordOrEvent.ofWord rfl (encR_low _ _ _ _ _ _ rfl)
theorem WordOrEvent.divu (rd rs1 rs2 : Reg) : WordOrEvent.Statement (.divu rd rs1 rs2) := WordOrEvent.ofWord rfl (encR_low _ _ _ _ _ _ rfl)
theorem WordOrEvent.rem (rd rs1 rs2 : Reg) : WordOrEvent.Statement (.rem rd rs1 rs2) := WordOrEvent.ofWord rfl (encR_low _ _ _ _ _ _ rfl)
theorem WordOrEvent.remu (rd rs1 rs2 : Reg) : WordOrEvent.Statement (.remu rd rs1 rs2) := WordOrEvent.ofWord rfl (encR_low _ _ _ _ _ _ rfl)
theorem WordOrEvent.mulw (rd rs1 rs2 : Reg) : WordOrEvent.Statement (.mulw rd rs1 rs2) := WordOrEvent.ofWord rfl (encR_low _ _ _ _ _ _ rfl)
theorem WordOrEvent.divw (rd rs1 rs2 : Reg) : WordOrEvent.Statement (.divw rd rs1 rs2) := WordOrEvent.ofWord rfl (encR_low _ _ _ _ _ _ rfl)
theorem WordOrEvent.divuw (rd rs1 rs2 : Reg) : WordOrEvent.Statement (.divuw rd rs1 rs2) := WordOrEvent.ofWord rfl (encR_low _ _ _ _ _ _ rfl)
theorem WordOrEvent.remw (rd rs1 rs2 : Reg) : WordOrEvent.Statement (.remw rd rs1 rs2) := WordOrEvent.ofWord rfl (encR_low _ _ _ _ _ _ rfl)
theorem WordOrEvent.remuw (rd rs1 rs2 : Reg) : WordOrEvent.Statement (.remuw rd rs1 rs2) := WordOrEvent.ofWord rfl (encR_low _ _ _ _ _ _ rfl)
theorem WordOrEvent.fence (fm pred succ : BitVec 4) : WordOrEvent.Statement (.fence fm pred succ) := WordOrEvent.ofWord rfl (fence_low _ _ _)
theorem WordOrEvent.fenceI : WordOrEvent.Statement (.fenceI) := WordOrEvent.ofWord rfl rfl
theorem WordOrEvent.ecall : WordOrEvent.Statement (.ecall) := WordOrEvent.ofWord rfl rfl
theorem WordOrEvent.ebreak : WordOrEvent.Statement (.ebreak) := WordOrEvent.ofWord rfl rfl
theorem WordOrEvent.csrrw (rd : Reg) (csr : BitVec 12) (rs1 : Reg) : WordOrEvent.Statement (.csrrw rd csr rs1) := WordOrEvent.ofWord rfl (encI_low _ _ _ _ _ rfl)
theorem WordOrEvent.csrrs (rd : Reg) (csr : BitVec 12) (rs1 : Reg) : WordOrEvent.Statement (.csrrs rd csr rs1) := WordOrEvent.ofWord rfl (encI_low _ _ _ _ _ rfl)
theorem WordOrEvent.csrrc (rd : Reg) (csr : BitVec 12) (rs1 : Reg) : WordOrEvent.Statement (.csrrc rd csr rs1) := WordOrEvent.ofWord rfl (encI_low _ _ _ _ _ rfl)
theorem WordOrEvent.csrrwi (rd : Reg) (csr : BitVec 12) (uimm : BitVec 5) : WordOrEvent.Statement (.csrrwi rd csr uimm) := WordOrEvent.ofWord rfl (encI_low _ _ _ _ _ rfl)
theorem WordOrEvent.csrrsi (rd : Reg) (csr : BitVec 12) (uimm : BitVec 5) : WordOrEvent.Statement (.csrrsi rd csr uimm) := WordOrEvent.ofWord rfl (encI_low _ _ _ _ _ rfl)
theorem WordOrEvent.csrrci (rd : Reg) (csr : BitVec 12) (uimm : BitVec 5) : WordOrEvent.Statement (.csrrci rd csr uimm) := WordOrEvent.ofWord rfl (encI_low _ _ _ _ _ rfl)
theorem WordOrEvent.sync (rd rs1 : Reg) : WordOrEvent.Statement (.sync rd rs1) := WordOrEvent.ofWord rfl (encR_low _ _ _ _ _ _ rfl)
theorem WordOrEvent.exit : WordOrEvent.Statement (.exit) := WordOrEvent.ofWord rfl (encR_low _ _ _ _ _ _ rfl)
theorem WordOrEvent.trig : WordOrEvent.Statement (.trig) := WordOrEvent.ofWord rfl (encR_low _ _ _ _ _ _ rfl)
theorem WordOrEvent.launch (rs1 : Reg) : WordOrEvent.Statement (.launch rs1) := WordOrEvent.ofWord rfl (encR_low _ _ _ _ _ _ rfl)
theorem WordOrEvent.abortreq (rs1 : Reg) : WordOrEvent.Statement (.abortreq rs1) := WordOrEvent.ofWord rfl (encR_low _ _ _ _ _ _ rfl)
theorem WordOrEvent.hret (rs1 : Reg) : WordOrEvent.Statement (.hret rs1) := WordOrEvent.ofWord rfl (encR_low _ _ _ _ _ _ rfl)
theorem WordOrEvent.cpget (rd rs1 : Reg) : WordOrEvent.Statement (.cpget rd rs1) := WordOrEvent.ofWord rfl (encR_low _ _ _ _ _ _ rfl)
theorem WordOrEvent.cpput (rd rs1 : Reg) : WordOrEvent.Statement (.cpput rd rs1) := WordOrEvent.ofWord rfl (encR_low _ _ _ _ _ _ rfl)
theorem WordOrEvent.cppeer (rd rs1 : Reg) : WordOrEvent.Statement (.cppeer rd rs1) := WordOrEvent.ofWord rfl (encR_low _ _ _ _ _ _ rfl)
theorem WordOrEvent.cpwait (rs1 : Reg) : WordOrEvent.Statement (.cpwait rs1) := WordOrEvent.ofWord rfl (encR_low _ _ _ _ _ _ rfl)
theorem WordOrEvent.cptest (rd rs1 : Reg) : WordOrEvent.Statement (.cptest rd rs1) := WordOrEvent.ofWord rfl (encR_low _ _ _ _ _ _ rfl)
theorem WordOrEvent.flist (rs1 : Reg) : WordOrEvent.Statement (.flist rs1) := WordOrEvent.ofWord rfl (encR_low _ _ _ _ _ _ rfl)
theorem WordOrEvent.give (rs1 rs2 : Reg) : WordOrEvent.Statement (.give rs1 rs2) := WordOrEvent.ofWord rfl (encR_low _ _ _ _ _ _ rfl)
theorem WordOrEvent.raddw (rs2 rs1 : Reg) : WordOrEvent.Statement (.raddw rs2 rs1) := WordOrEvent.ofWord rfl (encR_low _ _ _ _ _ _ rfl)
theorem WordOrEvent.raddd (rs2 rs1 : Reg) : WordOrEvent.Statement (.raddd rs2 rs1) := WordOrEvent.ofWord rfl (encR_low _ _ _ _ _ _ rfl)
theorem WordOrEvent.rfadds (rs2 rs1 : Reg) : WordOrEvent.Statement (.rfadds rs2 rs1) := WordOrEvent.ofWord rfl (encR_low _ _ _ _ _ _ rfl)
theorem WordOrEvent.rmind (rs2 rs1 : Reg) : WordOrEvent.Statement (.rmind rs2 rs1) := WordOrEvent.ofWord rfl (encR_low _ _ _ _ _ _ rfl)
theorem WordOrEvent.rmaxd (rs2 rs1 : Reg) : WordOrEvent.Statement (.rmaxd rs2 rs1) := WordOrEvent.ofWord rfl (encR_low _ _ _ _ _ _ rfl)
theorem WordOrEvent.rord (rs2 rs1 : Reg) : WordOrEvent.Statement (.rord rs2 rs1) := WordOrEvent.ofWord rfl (encR_low _ _ _ _ _ _ rfl)
theorem WordOrEvent.randd (rs2 rs1 : Reg) : WordOrEvent.Statement (.randd rs2 rs1) := WordOrEvent.ofWord rfl (encR_low _ _ _ _ _ _ rfl)
theorem WordOrEvent.rxord (rs2 rs1 : Reg) : WordOrEvent.Statement (.rxord rs2 rs1) := WordOrEvent.ofWord rfl (encR_low _ _ _ _ _ _ rfl)
theorem WordOrEvent.send (rs1 rs2 : Reg) : WordOrEvent.Statement (.send rs1 rs2) := WordOrEvent.ofWord rfl (encR_low _ _ _ _ _ _ rfl)
theorem WordOrEvent.redadd (rs2 rs1 : Reg) : WordOrEvent.Statement (.redadd rs2 rs1) := WordOrEvent.ofWord rfl (encR_low _ _ _ _ _ _ rfl)
theorem WordOrEvent.gfaa (rd rs2 rs1 : Reg) : WordOrEvent.Statement (.gfaa rd rs2 rs1) := WordOrEvent.ofWord rfl (encR_low _ _ _ _ _ _ rfl)
theorem WordOrEvent.gredAddd (rs1 rs2 : Reg) : WordOrEvent.Statement (.gredAddd rs1 rs2) := WordOrEvent.ofWord rfl (encR_low _ _ _ _ _ _ rfl)
theorem WordOrEvent.gredMind (rs1 rs2 : Reg) : WordOrEvent.Statement (.gredMind rs1 rs2) := WordOrEvent.ofWord rfl (encR_low _ _ _ _ _ _ rfl)
theorem WordOrEvent.gredMaxd (rs1 rs2 : Reg) : WordOrEvent.Statement (.gredMaxd rs1 rs2) := WordOrEvent.ofWord rfl (encR_low _ _ _ _ _ _ rfl)
theorem WordOrEvent.gredAndd (rs1 rs2 : Reg) : WordOrEvent.Statement (.gredAndd rs1 rs2) := WordOrEvent.ofWord rfl (encR_low _ _ _ _ _ _ rfl)
theorem WordOrEvent.gredOrd (rs1 rs2 : Reg) : WordOrEvent.Statement (.gredOrd rs1 rs2) := WordOrEvent.ofWord rfl (encR_low _ _ _ _ _ _ rfl)
theorem WordOrEvent.gredXord (rs1 rs2 : Reg) : WordOrEvent.Statement (.gredXord rs1 rs2) := WordOrEvent.ofWord rfl (encR_low _ _ _ _ _ _ rfl)
theorem WordOrEvent.gredFadds (rs1 rs2 : Reg) : WordOrEvent.Statement (.gredFadds rs1 rs2) := WordOrEvent.ofWord rfl (encR_low _ _ _ _ _ _ rfl)
theorem WordOrEvent.gredFmins (rs1 rs2 : Reg) : WordOrEvent.Statement (.gredFmins rs1 rs2) := WordOrEvent.ofWord rfl (encR_low _ _ _ _ _ _ rfl)
theorem WordOrEvent.gredFmaxs (rs1 rs2 : Reg) : WordOrEvent.Statement (.gredFmaxs rs1 rs2) := WordOrEvent.ofWord rfl (encR_low _ _ _ _ _ _ rfl)
theorem WordOrEvent.gresAddd (rd rs1 : Reg) : WordOrEvent.Statement (.gresAddd rd rs1) := WordOrEvent.ofWord rfl (encR_low _ _ _ _ _ _ rfl)
theorem WordOrEvent.gresMind (rd rs1 : Reg) : WordOrEvent.Statement (.gresMind rd rs1) := WordOrEvent.ofWord rfl (encR_low _ _ _ _ _ _ rfl)
theorem WordOrEvent.gresMaxd (rd rs1 : Reg) : WordOrEvent.Statement (.gresMaxd rd rs1) := WordOrEvent.ofWord rfl (encR_low _ _ _ _ _ _ rfl)
theorem WordOrEvent.gresAndd (rd rs1 : Reg) : WordOrEvent.Statement (.gresAndd rd rs1) := WordOrEvent.ofWord rfl (encR_low _ _ _ _ _ _ rfl)
theorem WordOrEvent.gresOrd (rd rs1 : Reg) : WordOrEvent.Statement (.gresOrd rd rs1) := WordOrEvent.ofWord rfl (encR_low _ _ _ _ _ _ rfl)
theorem WordOrEvent.gresXord (rd rs1 : Reg) : WordOrEvent.Statement (.gresXord rd rs1) := WordOrEvent.ofWord rfl (encR_low _ _ _ _ _ _ rfl)
theorem WordOrEvent.gresFadds (rd rs1 : Reg) : WordOrEvent.Statement (.gresFadds rd rs1) := WordOrEvent.ofWord rfl (encR_low _ _ _ _ _ _ rfl)
theorem WordOrEvent.gresFmins (rd rs1 : Reg) : WordOrEvent.Statement (.gresFmins rd rs1) := WordOrEvent.ofWord rfl (encR_low _ _ _ _ _ _ rfl)
theorem WordOrEvent.gresFmaxs (rd rs1 : Reg) : WordOrEvent.Statement (.gresFmaxs rd rs1) := WordOrEvent.ofWord rfl (encR_low _ _ _ _ _ _ rfl)
theorem WordOrEvent.bst (rs1 rs2 : Reg) : WordOrEvent.Statement (.bst rs1 rs2) := WordOrEvent.ofWord rfl (encR_low _ _ _ _ _ _ rfl)
theorem WordOrEvent.bld (rd rs1 : Reg) : WordOrEvent.Statement (.bld rd rs1) := WordOrEvent.ofWord rfl (encR_low _ _ _ _ _ _ rfl)
theorem WordOrEvent.tlook (rd rs1 : Reg) : WordOrEvent.Statement (.tlook rd rs1) := WordOrEvent.ofWord rfl (encR_low _ _ _ _ _ _ rfl)
theorem WordOrEvent.tins (rs1 rs2 : Reg) : WordOrEvent.Statement (.tins rs1 rs2) := WordOrEvent.ofWord rfl (encR_low _ _ _ _ _ _ rfl)
theorem WordOrEvent.tdel (rs1 : Reg) : WordOrEvent.Statement (.tdel rs1) := WordOrEvent.ofWord rfl (encR_low _ _ _ _ _ _ rfl)
theorem WordOrEvent.tclr : WordOrEvent.Statement (.tclr) := WordOrEvent.ofWord rfl (encR_low _ _ _ _ _ _ rfl)
theorem WordOrEvent.rep (count : BitVec 6) (steps : BitVec 3) (stride : BitVec 3) : WordOrEvent.Statement (.rep count steps stride) := WordOrEvent.ofWord rfl (rep_low _ _ _)
theorem WordOrEvent.stall (n : BitVec 12) : WordOrEvent.Statement (.stall n) := WordOrEvent.ofWord rfl (encI_low _ _ _ _ _ rfl)
theorem WordOrEvent.stallExpiry (slot : Slot) : WordOrEvent.Statement (.stallExpiry slot) := WordOrEvent.ofEvent rfl
theorem WordOrEvent.vld (vd rs1 : Reg) (pg : Pg) : WordOrEvent.Statement (.vld vd rs1 pg) := WordOrEvent.ofWord rfl (encVm_low _ _ _ _ _)
theorem WordOrEvent.vldpi (vd rs1 : Reg) (pg : Pg) : WordOrEvent.Statement (.vldpi vd rs1 pg) := WordOrEvent.ofWord rfl (encVm_low _ _ _ _ _)
theorem WordOrEvent.vst (vs rs1 : Reg) (pg : Pg) : WordOrEvent.Statement (.vst vs rs1 pg) := WordOrEvent.ofWord rfl (encVm_low _ _ _ _ _)
theorem WordOrEvent.vstpi (vs rs1 : Reg) (pg : Pg) : WordOrEvent.Statement (.vstpi vs rs1 pg) := WordOrEvent.ofWord rfl (encVm_low _ _ _ _ _)
theorem WordOrEvent.vlds (vd rs1 rs2 : Reg) (pg : Pg) : WordOrEvent.Statement (.vlds vd rs1 rs2 pg) := WordOrEvent.ofWord rfl (encVm_low _ _ _ _ _)
theorem WordOrEvent.vsts (vs rs1 rs2 : Reg) (pg : Pg) : WordOrEvent.Statement (.vsts vs rs1 rs2 pg) := WordOrEvent.ofWord rfl (encVm_low _ _ _ _ _)
theorem WordOrEvent.vgath (vd rs1 vi : Reg) (pg : Pg) : WordOrEvent.Statement (.vgath vd rs1 vi pg) := WordOrEvent.ofWord rfl (encVm_low _ _ _ _ _)
theorem WordOrEvent.vscat (vs rs1 vi : Reg) (pg : Pg) : WordOrEvent.Statement (.vscat vs rs1 vi pg) := WordOrEvent.ofWord rfl (encVm_low _ _ _ _ _)
theorem WordOrEvent.pldr (pd : PReg) (rs1 : Reg) : WordOrEvent.Statement (.pldr pd rs1) := WordOrEvent.ofWord rfl (encVm_low _ _ _ _ _)
theorem WordOrEvent.pstr (ps : PReg) (rs1 : Reg) : WordOrEvent.Statement (.pstr ps rs1) := WordOrEvent.ofWord rfl (encVm_low _ _ _ _ _)
theorem WordOrEvent.vfadd (es : FpTy) (vd vs1 vs2 : Reg) (pg : Pg) : WordOrEvent.Statement (.vfadd es vd vs1 vs2 pg) := WordOrEvent.ofWord rfl (encVr_low _ _ _ _ _ _)
theorem WordOrEvent.vfsub (es : FpTy) (vd vs1 vs2 : Reg) (pg : Pg) : WordOrEvent.Statement (.vfsub es vd vs1 vs2 pg) := WordOrEvent.ofWord rfl (encVr_low _ _ _ _ _ _)
theorem WordOrEvent.vfmul (es : FpTy) (vd vs1 vs2 : Reg) (pg : Pg) : WordOrEvent.Statement (.vfmul es vd vs1 vs2 pg) := WordOrEvent.ofWord rfl (encVr_low _ _ _ _ _ _)
theorem WordOrEvent.vfma (es : FpTy) (vd vs1 vs2 : Reg) (pg : Pg) : WordOrEvent.Statement (.vfma es vd vs1 vs2 pg) := WordOrEvent.ofWord rfl (encVr_low _ _ _ _ _ _)
theorem WordOrEvent.vfnms (es : FpTy) (vd vs1 vs2 : Reg) (pg : Pg) : WordOrEvent.Statement (.vfnms es vd vs1 vs2 pg) := WordOrEvent.ofWord rfl (encVr_low _ _ _ _ _ _)
theorem WordOrEvent.vfmin (es : FpTy) (vd vs1 vs2 : Reg) (pg : Pg) : WordOrEvent.Statement (.vfmin es vd vs1 vs2 pg) := WordOrEvent.ofWord rfl (encVr_low _ _ _ _ _ _)
theorem WordOrEvent.vfmax (es : FpTy) (vd vs1 vs2 : Reg) (pg : Pg) : WordOrEvent.Statement (.vfmax es vd vs1 vs2 pg) := WordOrEvent.ofWord rfl (encVr_low _ _ _ _ _ _)
theorem WordOrEvent.vfabs (es : FpTy) (vd vs1 : Reg) (pg : Pg) : WordOrEvent.Statement (.vfabs es vd vs1 pg) := WordOrEvent.ofWord rfl (encVr_low _ _ _ _ _ _)
theorem WordOrEvent.vfneg (es : FpTy) (vd vs1 : Reg) (pg : Pg) : WordOrEvent.Statement (.vfneg es vd vs1 pg) := WordOrEvent.ofWord rfl (encVr_low _ _ _ _ _ _)
theorem WordOrEvent.vfceq (es : FpTy) (pd : PReg) (vs1 vs2 : Reg) (pg : Pg) : WordOrEvent.Statement (.vfceq es pd vs1 vs2 pg) := WordOrEvent.ofWord rfl (encVr_low _ _ _ _ _ _)
theorem WordOrEvent.vfclt (es : FpTy) (pd : PReg) (vs1 vs2 : Reg) (pg : Pg) : WordOrEvent.Statement (.vfclt es pd vs1 vs2 pg) := WordOrEvent.ofWord rfl (encVr_low _ _ _ _ _ _)
theorem WordOrEvent.vfcle (es : FpTy) (pd : PReg) (vs1 vs2 : Reg) (pg : Pg) : WordOrEvent.Statement (.vfcle es pd vs1 vs2 pg) := WordOrEvent.ofWord rfl (encVr_low _ _ _ _ _ _)
theorem WordOrEvent.vfsumr (es : FpTy) (vd vs1 : Reg) (pg : Pg) : WordOrEvent.Statement (.vfsumr es vd vs1 pg) := WordOrEvent.ofWord rfl (encVr_low _ _ _ _ _ _)
theorem WordOrEvent.vfmaxr (es : FpTy) (vd vs1 : Reg) (pg : Pg) : WordOrEvent.Statement (.vfmaxr es vd vs1 pg) := WordOrEvent.ofWord rfl (encVr_low _ _ _ _ _ _)
theorem WordOrEvent.vfcvt (es : FpTy) (src : SrcTy) (vd vs1 : Reg) (pg : Pg) : WordOrEvent.Statement (.vfcvt es src vd vs1 pg) := WordOrEvent.ofWord rfl (encVr_low _ _ _ _ _ _)
theorem WordOrEvent.vfcpys (es : FpTy) (vd vs1 vs2 : Reg) (pg : Pg) : WordOrEvent.Statement (.vfcpys es vd vs1 vs2 pg) := WordOrEvent.ofWord rfl (encVr_low _ _ _ _ _ _)
theorem WordOrEvent.vfrcp (es : FpTy) (vd vs1 : Reg) (pg : Pg) : WordOrEvent.Statement (.vfrcp es vd vs1 pg) := WordOrEvent.ofWord rfl (encVr_low _ _ _ _ _ _)
theorem WordOrEvent.vfrsq (es : FpTy) (vd vs1 : Reg) (pg : Pg) : WordOrEvent.Statement (.vfrsq es vd vs1 pg) := WordOrEvent.ofWord rfl (encVr_low _ _ _ _ _ _)
theorem WordOrEvent.vfsqrt (es : FpTy) (vd vs1 : Reg) (pg : Pg) : WordOrEvent.Statement (.vfsqrt es vd vs1 pg) := WordOrEvent.ofWord rfl (encVr_low _ _ _ _ _ _)
theorem WordOrEvent.vfdiv (es : FpTy) (vd vs1 vs2 : Reg) (pg : Pg) : WordOrEvent.Statement (.vfdiv es vd vs1 vs2 pg) := WordOrEvent.ofWord rfl (encVr_low _ _ _ _ _ _)
theorem WordOrEvent.vfexp2 (es : FpTy) (vd vs1 : Reg) (pg : Pg) : WordOrEvent.Statement (.vfexp2 es vd vs1 pg) := WordOrEvent.ofWord rfl (encVr_low _ _ _ _ _ _)
theorem WordOrEvent.vflog2 (es : FpTy) (vd vs1 : Reg) (pg : Pg) : WordOrEvent.Statement (.vflog2 es vd vs1 pg) := WordOrEvent.ofWord rfl (encVr_low _ _ _ _ _ _)
theorem WordOrEvent.vftanh (es : FpTy) (vd vs1 : Reg) (pg : Pg) : WordOrEvent.Statement (.vftanh es vd vs1 pg) := WordOrEvent.ofWord rfl (encVr_low _ _ _ _ _ _)
theorem WordOrEvent.sfuRequestComplete (l t : Nat) : WordOrEvent.Statement (.sfuRequestComplete l t) := WordOrEvent.ofEvent rfl
theorem WordOrEvent.vcvtn (vd vs1 : Reg) (f : BitVec 3) (pg : Pg) : WordOrEvent.Statement (.vcvtn vd vs1 f pg) := WordOrEvent.ofWord rfl (encVr_low _ _ _ _ _ _)
theorem WordOrEvent.vcvtw (vd vs1 : Reg) (f : BitVec 3) (pg : Pg) : WordOrEvent.Statement (.vcvtw vd vs1 f pg) := WordOrEvent.ofWord rfl (encVr_low _ _ _ _ _ _)
theorem WordOrEvent.vscale (vd vs1 vs2 : Reg) (pg : Pg) : WordOrEvent.Statement (.vscale vd vs1 vs2 pg) := WordOrEvent.ofWord rfl (encVr_low _ _ _ _ _ _)
theorem WordOrEvent.vbmax (vd vs1 : Reg) (f : BitVec 3) (pg : Pg) : WordOrEvent.Statement (.vbmax vd vs1 f pg) := WordOrEvent.ofWord rfl (encVr_low _ _ _ _ _ _)
theorem WordOrEvent.vadd (es : IntTy) (vd vs1 vs2 : Reg) (pg : Pg) : WordOrEvent.Statement (.vadd es vd vs1 vs2 pg) := WordOrEvent.ofWord rfl (encVr_low _ _ _ _ _ _)
theorem WordOrEvent.vsub (es : IntTy) (vd vs1 vs2 : Reg) (pg : Pg) : WordOrEvent.Statement (.vsub es vd vs1 vs2 pg) := WordOrEvent.ofWord rfl (encVr_low _ _ _ _ _ _)
theorem WordOrEvent.vmul (es : IntTy) (vd vs1 vs2 : Reg) (pg : Pg) : WordOrEvent.Statement (.vmul es vd vs1 vs2 pg) := WordOrEvent.ofWord rfl (encVr_low _ _ _ _ _ _)
theorem WordOrEvent.vmulh (es : IntTy) (vd vs1 vs2 : Reg) (pg : Pg) : WordOrEvent.Statement (.vmulh es vd vs1 vs2 pg) := WordOrEvent.ofWord rfl (encVr_low _ _ _ _ _ _)
theorem WordOrEvent.vand (es : IntTy) (vd vs1 vs2 : Reg) (pg : Pg) : WordOrEvent.Statement (.vand es vd vs1 vs2 pg) := WordOrEvent.ofWord rfl (encVr_low _ _ _ _ _ _)
theorem WordOrEvent.vor (es : IntTy) (vd vs1 vs2 : Reg) (pg : Pg) : WordOrEvent.Statement (.vor es vd vs1 vs2 pg) := WordOrEvent.ofWord rfl (encVr_low _ _ _ _ _ _)
theorem WordOrEvent.vxor (es : IntTy) (vd vs1 vs2 : Reg) (pg : Pg) : WordOrEvent.Statement (.vxor es vd vs1 vs2 pg) := WordOrEvent.ofWord rfl (encVr_low _ _ _ _ _ _)
theorem WordOrEvent.vsll (es : IntTy) (vd vs1 vs2 : Reg) (pg : Pg) : WordOrEvent.Statement (.vsll es vd vs1 vs2 pg) := WordOrEvent.ofWord rfl (encVr_low _ _ _ _ _ _)
theorem WordOrEvent.vsrl (es : IntTy) (vd vs1 vs2 : Reg) (pg : Pg) : WordOrEvent.Statement (.vsrl es vd vs1 vs2 pg) := WordOrEvent.ofWord rfl (encVr_low _ _ _ _ _ _)
theorem WordOrEvent.vsra (es : IntTy) (vd vs1 vs2 : Reg) (pg : Pg) : WordOrEvent.Statement (.vsra es vd vs1 vs2 pg) := WordOrEvent.ofWord rfl (encVr_low _ _ _ _ _ _)
theorem WordOrEvent.vmin (es : IntTy) (vd vs1 vs2 : Reg) (pg : Pg) : WordOrEvent.Statement (.vmin es vd vs1 vs2 pg) := WordOrEvent.ofWord rfl (encVr_low _ _ _ _ _ _)
theorem WordOrEvent.vmax (es : IntTy) (vd vs1 vs2 : Reg) (pg : Pg) : WordOrEvent.Statement (.vmax es vd vs1 vs2 pg) := WordOrEvent.ofWord rfl (encVr_low _ _ _ _ _ _)
theorem WordOrEvent.vminu (es : IntTy) (vd vs1 vs2 : Reg) (pg : Pg) : WordOrEvent.Statement (.vminu es vd vs1 vs2 pg) := WordOrEvent.ofWord rfl (encVr_low _ _ _ _ _ _)
theorem WordOrEvent.vmaxu (es : IntTy) (vd vs1 vs2 : Reg) (pg : Pg) : WordOrEvent.Statement (.vmaxu es vd vs1 vs2 pg) := WordOrEvent.ofWord rfl (encVr_low _ _ _ _ _ _)
theorem WordOrEvent.viceq (es : IntTy) (pd : PReg) (vs1 vs2 : Reg) (pg : Pg) : WordOrEvent.Statement (.viceq es pd vs1 vs2 pg) := WordOrEvent.ofWord rfl (encVr_low _ _ _ _ _ _)
theorem WordOrEvent.viclt (es : IntTy) (pd : PReg) (vs1 vs2 : Reg) (pg : Pg) : WordOrEvent.Statement (.viclt es pd vs1 vs2 pg) := WordOrEvent.ofWord rfl (encVr_low _ _ _ _ _ _)
theorem WordOrEvent.vicltu (es : IntTy) (pd : PReg) (vs1 vs2 : Reg) (pg : Pg) : WordOrEvent.Statement (.vicltu es pd vs1 vs2 pg) := WordOrEvent.ofWord rfl (encVr_low _ _ _ _ _ _)
theorem WordOrEvent.vsel (vd vs1 vs2 : Reg) (pg : Pg) : WordOrEvent.Statement (.vsel vd vs1 vs2 pg) := WordOrEvent.ofWord rfl (encVr_low _ _ _ _ _ _)
theorem WordOrEvent.vperm (es : IntTy) (vd vs1 vs2 : Reg) (pg : Pg) : WordOrEvent.Statement (.vperm es vd vs1 vs2 pg) := WordOrEvent.ofWord rfl (encVr_low _ _ _ _ _ _)
theorem WordOrEvent.vslup (es : IntTy) (vd vs2 rs1 : Reg) (pg : Pg) : WordOrEvent.Statement (.vslup es vd vs2 rs1 pg) := WordOrEvent.ofWord rfl (encVr_low _ _ _ _ _ _)
theorem WordOrEvent.vsldn (es : IntTy) (vd vs2 rs1 : Reg) (pg : Pg) : WordOrEvent.Statement (.vsldn es vd vs2 rs1 pg) := WordOrEvent.ofWord rfl (encVr_low _ _ _ _ _ _)
theorem WordOrEvent.vzip (es : IntTy) (vd vs1 vs2 : Reg) (pg : Pg) : WordOrEvent.Statement (.vzip es vd vs1 vs2 pg) := WordOrEvent.ofWord rfl (encVr_low _ _ _ _ _ _)
theorem WordOrEvent.vunzip (es : IntTy) (vd vs1 vs2 : Reg) (pg : Pg) : WordOrEvent.Statement (.vunzip es vd vs1 vs2 pg) := WordOrEvent.ofWord rfl (encVr_low _ _ _ _ _ _)
theorem WordOrEvent.viota (es : IntTy) (vd : Reg) (pg : Pg) : WordOrEvent.Statement (.viota es vd pg) := WordOrEvent.ofWord rfl (encVr_low _ _ _ _ _ _)
theorem WordOrEvent.vdupx (es : IntTy) (vd rs1 : Reg) (pg : Pg) : WordOrEvent.Statement (.vdupx es vd rs1 pg) := WordOrEvent.ofWord rfl (encVr_low _ _ _ _ _ _)
theorem WordOrEvent.vmvxs (es : IntTy) (rd vs2 rs1 : Reg) : WordOrEvent.Statement (.vmvxs es rd vs2 rs1) := WordOrEvent.ofWord rfl (encVr_low _ _ _ _ _ _)
theorem WordOrEvent.visumr (es : IntTy) (vd vs1 : Reg) (pg : Pg) : WordOrEvent.Statement (.visumr es vd vs1 pg) := WordOrEvent.ofWord rfl (encVr_low _ _ _ _ _ _)
theorem WordOrEvent.pwhilelt (es : IntTy) (pd : PReg) (rs1 rs2 : Reg) : WordOrEvent.Statement (.pwhilelt es pd rs1 rs2) := WordOrEvent.ofWord rfl (encVr_low _ _ _ _ _ _)
theorem WordOrEvent.plogicAnd (pd ps1 ps2 : PReg) : WordOrEvent.Statement (.plogicAnd pd ps1 ps2) := WordOrEvent.ofWord rfl (encVr_low _ _ _ _ _ _)
theorem WordOrEvent.plogicOr (pd ps1 ps2 : PReg) : WordOrEvent.Statement (.plogicOr pd ps1 ps2) := WordOrEvent.ofWord rfl (encVr_low _ _ _ _ _ _)
theorem WordOrEvent.plogicXor (pd ps1 ps2 : PReg) : WordOrEvent.Statement (.plogicXor pd ps1 ps2) := WordOrEvent.ofWord rfl (encVr_low _ _ _ _ _ _)
theorem WordOrEvent.plogicAndn (pd ps1 ps2 : PReg) : WordOrEvent.Statement (.plogicAndn pd ps1 ps2) := WordOrEvent.ofWord rfl (encVr_low _ _ _ _ _ _)
theorem WordOrEvent.pcnt (es : IntTy) (rd : Reg) (ps1 : PReg) : WordOrEvent.Statement (.pcnt es rd ps1) := WordOrEvent.ofWord rfl (encVr_low _ _ _ _ _ _)
theorem WordOrEvent.pfirst (es : IntTy) (pd ps1 : PReg) : WordOrEvent.Statement (.pfirst es pd ps1) := WordOrEvent.ofWord rfl (encVr_low _ _ _ _ _ _)
theorem WordOrEvent.vli (es : ViTy) (vd : Reg) (imm : BitVec 16) : WordOrEvent.Statement (.vli es vd imm) := WordOrEvent.ofWord rfl (encVi_low _ _ _ _)
theorem WordOrEvent.vaddi (es : ViTy) (vd : Reg) (imm : BitVec 16) : WordOrEvent.Statement (.vaddi es vd imm) := WordOrEvent.ofWord rfl (encVi_low _ _ _ _)
theorem WordOrEvent.vmuli (es : ViTy) (vd : Reg) (imm : BitVec 16) : WordOrEvent.Statement (.vmuli es vd imm) := WordOrEvent.ofWord rfl (encVi_low _ _ _ _)
theorem WordOrEvent.vmaxi (es : ViTy) (vd : Reg) (imm : BitVec 16) : WordOrEvent.Statement (.vmaxi es vd imm) := WordOrEvent.ofWord rfl (encVi_low _ _ _ _)
theorem WordOrEvent.mzero (md : Acc) : WordOrEvent.Statement (.mzero md) := WordOrEvent.ofWord rfl (encM_low _ _ _ _ _)
theorem WordOrEvent.mma (md : Acc) (rs1 rs2 : Reg) : WordOrEvent.Statement (.mma md rs1 rs2) := WordOrEvent.ofWord rfl (encM_low _ _ _ _ _)
theorem WordOrEvent.mmas (md : Acc) (rs1 rs2 : Reg) : WordOrEvent.Statement (.mmas md rs1 rs2) := WordOrEvent.ofWord rfl (encM_low _ _ _ _ _)
theorem WordOrEvent.mmav (md : Acc) (va : Reg) (rs2 : Reg) : WordOrEvent.Statement (.mmav md va rs2) := WordOrEvent.ofWord rfl (encM_low _ _ _ _ _)
theorem WordOrEvent.mrd (vd : Reg) (ms : Acc) (rs1 : Reg) : WordOrEvent.Statement (.mrd vd ms rs1) := WordOrEvent.ofWord rfl (encM_low _ _ _ _ _)
theorem WordOrEvent.mwr (md : Acc) (vs rs1 : Reg) : WordOrEvent.Statement (.mwr md vs rs1) := WordOrEvent.ofWord rfl (encM_low _ _ _ _ _)
theorem WordOrEvent.mst (ms : Acc) (rs1 : Reg) : WordOrEvent.Statement (.mst ms rs1) := WordOrEvent.ofWord rfl (encM_low _ _ _ _ _)
theorem WordOrEvent.mwait (md : Acc) : WordOrEvent.Statement (.mwait md) := WordOrEvent.ofWord rfl (encM_low _ _ _ _ _)
theorem WordOrEvent.matrixRequestStart (l t : Nat) : WordOrEvent.Statement (.matrixRequestStart l t) := WordOrEvent.ofEvent rfl
theorem WordOrEvent.matrixRequestComplete (l t n : Nat) : WordOrEvent.Statement (.matrixRequestComplete l t n) := WordOrEvent.ofEvent rfl
theorem WordOrEvent.qrv (vd rs1 : Reg) : WordOrEvent.Statement (.qrv vd rs1) := WordOrEvent.ofWord rfl (encM_low _ _ _ _ _)
theorem WordOrEvent.qrvf (vd rs1 : Reg) : WordOrEvent.Statement (.qrvf vd rs1) := WordOrEvent.ofWord rfl (encM_low _ _ _ _ _)
theorem WordOrEvent.qrx (rd rs1 rs2 : Reg) : WordOrEvent.Statement (.qrx rd rs1 rs2) := WordOrEvent.ofWord rfl (encM_low _ _ _ _ _)
theorem WordOrEvent.qrnext : WordOrEvent.Statement (.qrnext) := WordOrEvent.ofWord rfl (encM_low _ _ _ _ _)
theorem WordOrEvent.qrskip (rs1 : Reg) : WordOrEvent.Statement (.qrskip rs1) := WordOrEvent.ofWord rfl (encM_low _ _ _ _ _)
theorem WordOrEvent.qrtld (rs1 rs2 : Reg) : WordOrEvent.Statement (.qrtld rs1 rs2) := WordOrEvent.ofWord rfl (encM_low _ _ _ _ _)
theorem WordOrEvent.pipv (vd : Reg) : WordOrEvent.Statement (.pipv vd) := WordOrEvent.ofWord rfl (encM_low _ _ _ _ _)
theorem WordOrEvent.accessResult (slot : Slot) (k : Nat) : WordOrEvent.Statement (.accessResult slot k) := WordOrEvent.ofEvent rfl
theorem WordOrEvent.copyComplete (l t n : Nat) (tag : Word) : WordOrEvent.Statement (.copyComplete l t n tag) := WordOrEvent.ofEvent rfl
theorem WordOrEvent.cceRound (pkg die cluster : Nat) : WordOrEvent.Statement (.cceRound pkg die cluster) := WordOrEvent.ofEvent rfl
theorem WordOrEvent.trapDelivery (l t n : Nat) : WordOrEvent.Statement (.trapDelivery l t n) := WordOrEvent.ofEvent rfl
theorem WordOrEvent.escalatedTrap (l t n : Nat) (act : EscAction) : WordOrEvent.Statement (.escalatedTrap l t n act) := WordOrEvent.ofEvent rfl
theorem WordOrEvent.waveEnd (l : Nat) : WordOrEvent.Statement (.waveEnd l) := WordOrEvent.ofEvent rfl
theorem WordOrEvent.vote (l p : Nat) : WordOrEvent.Statement (.vote l p) := WordOrEvent.ofEvent rfl
theorem WordOrEvent.ladderClose (l p : Nat) : WordOrEvent.Statement (.ladderClose l p) := WordOrEvent.ofEvent rfl
theorem WordOrEvent.checkpointPauseEnd (l : Nat) : WordOrEvent.Statement (.checkpointPauseEnd l) := WordOrEvent.ofEvent rfl
theorem WordOrEvent.earlyAbort (l : Nat) : WordOrEvent.Statement (.earlyAbort l) := WordOrEvent.ofEvent rfl
theorem WordOrEvent.sramError (l t : Nat) (place : SramPlace) (rebuilt : Bool) : WordOrEvent.Statement (.sramError l t place rebuilt) := WordOrEvent.ofEvent rfl
theorem WordOrEvent.residueMismatch (l t : Nat) : WordOrEvent.Statement (.residueMismatch l t) := WordOrEvent.ofEvent rfl
theorem WordOrEvent.stageEnd (l : Nat) : WordOrEvent.Statement (.stageEnd l) := WordOrEvent.ofEvent rfl
theorem WordOrEvent.contextSaveComplete (l t : Nat) (result : SaveResult) : WordOrEvent.Statement (.contextSaveComplete l t result) := WordOrEvent.ofEvent rfl
theorem WordOrEvent.launchStart (pkg : Nat) (dom : Placing) : WordOrEvent.Statement (.launchStart pkg dom) := WordOrEvent.ofEvent rfl
theorem WordOrEvent.aging (pkg dom q k : Nat) : WordOrEvent.Statement (.aging pkg dom q k) := WordOrEvent.ofEvent rfl
theorem WordOrEvent.preemptionRequest (l : Nat) : WordOrEvent.Statement (.preemptionRequest l) := WordOrEvent.ofEvent rfl
theorem WordOrEvent.powerParkTimeout (pkg : Nat) : WordOrEvent.Statement (.powerParkTimeout pkg) := WordOrEvent.ofEvent rfl
theorem WordOrEvent.dieOutOfService (pkg die : Nat) : WordOrEvent.Statement (.dieOutOfService pkg die) := WordOrEvent.ofEvent rfl
theorem WordOrEvent.packetReceive (k : Nat) : WordOrEvent.Statement (.packetReceive k) := WordOrEvent.ofEvent rfl
theorem WordOrEvent.packetAck (k : Nat) : WordOrEvent.Statement (.packetAck k) := WordOrEvent.ofEvent rfl
theorem WordOrEvent.packetRefusal (k : Nat) : WordOrEvent.Statement (.packetRefusal k) := WordOrEvent.ofEvent rfl
theorem WordOrEvent.flit (pkg port first : Nat) (corrected : List Nat) (bad : List Bool) : WordOrEvent.Statement (.flit pkg port first corrected bad) := WordOrEvent.ofEvent rfl
theorem WordOrEvent.subWindowEnd (pkg port lane : Nat) : WordOrEvent.Statement (.subWindowEnd pkg port lane) := WordOrEvent.ofEvent rfl
theorem WordOrEvent.laneWithdrawal (pkg port lane : Nat) : WordOrEvent.Statement (.laneWithdrawal pkg port lane) := WordOrEvent.ofEvent rfl
theorem WordOrEvent.laneRejoin (pkg port lane : Nat) : WordOrEvent.Statement (.laneRejoin pkg port lane) := WordOrEvent.ofEvent rfl
theorem WordOrEvent.lockAttemptTimeout (pkg port lane : Nat) : WordOrEvent.Statement (.lockAttemptTimeout pkg port lane) := WordOrEvent.ofEvent rfl
theorem WordOrEvent.retryWaitEnd (pkg port lane : Nat) : WordOrEvent.Statement (.retryWaitEnd pkg port lane) := WordOrEvent.ofEvent rfl
theorem WordOrEvent.portLost (pkg port : Nat) : WordOrEvent.Statement (.portLost pkg port) := WordOrEvent.ofEvent rfl
theorem WordOrEvent.pathTableRewrite (pkg : Nat) (entries : List (Nat × BitVec 64)) : WordOrEvent.Statement (.pathTableRewrite pkg entries) := WordOrEvent.ofEvent rfl
theorem WordOrEvent.visit : WordOrEvent.Statement (.visit) := WordOrEvent.ofEvent rfl
theorem WordOrEvent.pawnFrame (pkg : Nat) : WordOrEvent.Statement (.pawnFrame pkg) := WordOrEvent.ofEvent rfl
theorem WordOrEvent.voteFrame (pkg : Nat) : WordOrEvent.Statement (.voteFrame pkg) := WordOrEvent.ofEvent rfl
theorem WordOrEvent.commitFrame (pkg : Nat) : WordOrEvent.Statement (.commitFrame pkg) := WordOrEvent.ofEvent rfl
theorem WordOrEvent.bcastFrame (pkg : Nat) : WordOrEvent.Statement (.bcastFrame pkg) := WordOrEvent.ofEvent rfl
theorem WordOrEvent.packageFailed (pkg : Nat) : WordOrEvent.Statement (.packageFailed pkg) := WordOrEvent.ofEvent rfl
theorem WordOrEvent.spareTakeover (failed : Nat) (spare : Spare) : WordOrEvent.Statement (.spareTakeover failed spare) := WordOrEvent.ofEvent rfl
theorem WordOrEvent.qpush (pkg dom q : Nat) (va : Word) : WordOrEvent.Statement (.qpush pkg dom q va) := WordOrEvent.ofEvent rfl
theorem WordOrEvent.wbsel (pkg dom : Nat) (v : Word) : WordOrEvent.Statement (.wbsel pkg dom v) := WordOrEvent.ofEvent rfl
theorem WordOrEvent.evtail (pkg dom : Nat) (v : Word) : WordOrEvent.Statement (.evtail pkg dom v) := WordOrEvent.ofEvent rfl
theorem WordOrEvent.rstgo (pkg dom : Nat) (v : Word) : WordOrEvent.Statement (.rstgo pkg dom v) := WordOrEvent.ofEvent rfl
theorem WordOrEvent.attgo (pkg : Nat) (va : Word) : WordOrEvent.Statement (.attgo pkg va) := WordOrEvent.ofEvent rfl
theorem WordOrEvent.attestationReport (pkg : Nat) : WordOrEvent.Statement (.attestationReport pkg) := WordOrEvent.ofEvent rfl
theorem WordOrEvent.pwrstep (pkg : Nat) (v : Word) : WordOrEvent.Statement (.pwrstep pkg v) := WordOrEvent.ofEvent rfl
theorem WordOrEvent.pbcmdStart (pkg : Nat) : WordOrEvent.Statement (.pbcmdStart pkg) := WordOrEvent.ofEvent rfl
theorem WordOrEvent.pbcmdCommit (pkg : Nat) : WordOrEvent.Statement (.pbcmdCommit pkg) := WordOrEvent.ofEvent rfl
theorem WordOrEvent.pbcmdAbandon (pkg : Nat) : WordOrEvent.Statement (.pbcmdAbandon pkg) := WordOrEvent.ofEvent rfl
theorem WordOrEvent.clrfail (pkg port : Nat) : WordOrEvent.Statement (.clrfail pkg port) := WordOrEvent.ofEvent rfl
theorem WordOrEvent.registerWrite (pkg offset size : Nat) (v : Word) (secure : Bool) : WordOrEvent.Statement (.registerWrite pkg offset size v secure) := WordOrEvent.ofEvent rfl
theorem WordOrEvent.windowBRead (pkg offset size : Nat) : WordOrEvent.Statement (.windowBRead pkg offset size) := WordOrEvent.ofEvent rfl
theorem WordOrEvent.windowBWrite (pkg offset : Nat) (bytes : List Byte) : WordOrEvent.Statement (.windowBWrite pkg offset bytes) := WordOrEvent.ofEvent rfl
theorem WordOrEvent.i3cPrivateWrite (pkg : Nat) (addr : BitVec 16) (v : Word) : WordOrEvent.Statement (.i3cPrivateWrite pkg addr v) := WordOrEvent.ofEvent rfl
theorem WordOrEvent.i3cPrivateRead (pkg : Nat) (addr : BitVec 16) : WordOrEvent.Statement (.i3cPrivateRead pkg addr) := WordOrEvent.ofEvent rfl
theorem WordOrEvent.gridstepSample (pkg : Nat) (pins : BitVec 3) : WordOrEvent.Statement (.gridstepSample pkg pins) := WordOrEvent.ofEvent rfl
theorem WordOrEvent.walkStart (pkg : Nat) : WordOrEvent.Statement (.walkStart pkg) := WordOrEvent.ofEvent rfl
theorem WordOrEvent.walkStep (pkg : Nat) : WordOrEvent.Statement (.walkStep pkg) := WordOrEvent.ofEvent rfl
theorem WordOrEvent.pfail (pkg : Nat) : WordOrEvent.Statement (.pfail pkg) := WordOrEvent.ofEvent rfl
theorem WordOrEvent.drainStart (pkg : Nat) : WordOrEvent.Statement (.drainStart pkg) := WordOrEvent.ofEvent rfl
theorem WordOrEvent.drainEnd (pkg : Nat) : WordOrEvent.Statement (.drainEnd pkg) := WordOrEvent.ofEvent rfl
theorem WordOrEvent.resetRelease (pkg : Nat) (rel : Release) : WordOrEvent.Statement (.resetRelease pkg rel) := WordOrEvent.ofEvent rfl
theorem WordOrEvent.clusterWake (pkg : Nat) (ok : Bool) : WordOrEvent.Statement (.clusterWake pkg ok) := WordOrEvent.ofEvent rfl
theorem WordOrEvent.hbmTraining (pkg : Nat) (failed : BitVec 16) : WordOrEvent.Statement (.hbmTraining pkg failed) := WordOrEvent.ofEvent rfl
theorem WordOrEvent.sramInitialisation (pkg : Nat) (failed : List Nat) : WordOrEvent.Statement (.sramInitialisation pkg failed) := WordOrEvent.ofEvent rfl
theorem WordOrEvent.opticalTraining (pkg : Nat) (failed : List (Nat × Nat)) (pairing : List (Nat × BitVec 64)) (members : List Nat) (sched : List (BitVec 32)) : WordOrEvent.Statement (.opticalTraining pkg failed pairing members sched) := WordOrEvent.ofEvent rfl
theorem WordOrEvent.activate (pkg stack bank row : Nat) : WordOrEvent.Statement (.activate pkg stack bank row) := WordOrEvent.ofEvent rfl
theorem WordOrEvent.bankRefresh (pkg stack bank : Nat) : WordOrEvent.Statement (.bankRefresh pkg stack bank) := WordOrEvent.ofEvent rfl
theorem WordOrEvent.powerReturn (pkg : Nat) : WordOrEvent.Statement (.powerReturn pkg) := WordOrEvent.ofEvent rfl
theorem WordOrEvent.missedFrame (pkg : Nat) : WordOrEvent.Statement (.missedFrame pkg) := WordOrEvent.ofEvent rfl
theorem WordOrEvent.pageTableWrite (pkg dom : Nat) (va : Word) (pte : BitVec 64) : WordOrEvent.Statement (.pageTableWrite pkg dom va pte) := WordOrEvent.ofEvent rfl
theorem WordOrEvent.divideComplete (slot : Slot) : WordOrEvent.Statement (.divideComplete slot) := WordOrEvent.ofEvent rfl
theorem WordOrEvent.heldLaunchDecision (l : Nat) (retry : Bool) : WordOrEvent.Statement (.heldLaunchDecision l retry) := WordOrEvent.ofEvent rfl
theorem WordOrEvent.heldTilesRelease (l : Nat) : WordOrEvent.Statement (.heldTilesRelease l) := WordOrEvent.ofEvent rfl
theorem WordOrEvent.domainConfiguration (pkg dom : Nat) (cfg : DomCfg) : WordOrEvent.Statement (.domainConfiguration pkg dom cfg) := WordOrEvent.ofEvent rfl

end Sys2Proof.Laws
end

