-- ==== Sys2Proof/Tests/Slice0.lean ====
section
/-!
SUPPORT. The model's own tests: ill-formed terms are refused, words of the spec decode to what they stand for, every statement
with hypotheses has a state that meets them, and small checks of single steps.
-/

namespace Sys2Proof.Tests

open Sys2Proof Sys2Proof.Machine Sys2Proof.Claims

set_option Elab.async false

/-- What holds of the head and of the tail holds of the list: a witness is shown element by element. -/
theorem onList_cons {Case : Type} {Meets : Case → Prop} {first : Case} {rest : List Case} (one : Meets first) (others : ∀ e ∈ rest, Meets e) :
    ∀ e ∈ first :: rest, Meets e := List.forall_mem_cons.2 ⟨one, others⟩

theorem onList_nil {Case : Type} {Meets : Case → Prop} : ∀ e ∈ ([] : List Case), Meets e := List.forall_mem_nil _

/-! ### Well-formedness -/

/-- One ill-formed term for each check of an instruction word (R125, R129, R131, R133, R150, R180). -/
theorem test_illformed_words : ([.rep 0 0 5, .stall 0, .vfcvt .bf16 .bf16 1 2 0, .vaddi .fp8 1 0, .vmuli .fp8 1 0, .vmaxi .fp8 1 0, .mma 0 3 2,
    .mma 0 2 3, .mmas 0 3 2, .mmas 0 2 3, .mmav 0 8 2, .mmav 0 16 3, .mst 0 5] : List Instr).all (fun i => !i.wf) = true := by decide +kernel

/-- One ill-formed term for each check of an event: it names an object that the part does not have. -/
theorem test_illformed_events : ([.stallExpiry (.thread 0 0 4), .accessResult (.handler 192 0) 0, .divideComplete (.handler 0 2048),
    .matrixRequestComplete 0 0 4, .copyComplete 0 0 4 0, .cceRound 192 0 0, .cceRound 0 8 0, .cceRound 0 0 16, .trapDelivery 0 0 4,
    .escalatedTrap 0 0 4 .kill, .vote 0 192, .ladderClose 0 192, .launchStart 192 ⟨0, 8⟩, .launchStart 0 ⟨4, 8⟩, .launchStart 0 ⟨0, 0⟩, .launchStart 0 ⟨0, 16⟩, .aging 192 0 0 0, .aging 0 4 0 0,
    .aging 0 0 8 0, .powerParkTimeout 192, .dieOutOfService 192 0, .dieOutOfService 0 8, .flit 0 28 0 (List.replicate 8 0) (List.replicate 8 false), .flit 0 0 0 (List.replicate 7 0) (List.replicate 8 false), .flit 0 0 0 (List.replicate 8 0) [],
    .subWindowEnd 0 28 0, .laneWithdrawal 0 0 64, .laneRejoin 0 28 0, .lockAttemptTimeout 0 0 64, .retryWaitEnd 0 28 0, .portLost 0 28,
    .pathTableRewrite 0 [(768, 0)], .pawnFrame 192, .voteFrame 192, .commitFrame 192, .bcastFrame 192] : List Instr).all (fun i => !i.wf) = true := by
  decide +kernel

theorem test_illformed_host_events : ([.packageFailed 192, .spareTakeover 192 ⟨0, [], none⟩, .spareTakeover 0 ⟨192, [], none⟩, .spareTakeover 1 ⟨1, [], none⟩, .qpush 192 0 0 0,
    .qpush 0 4 0 0, .qpush 0 0 8 0, .wbsel 0 4 0, .evtail 0 4 0, .rstgo 0 4 0, .attgo 192 0, .attestationReport 192, .pwrstep 192 0,
    .pbcmdStart 192, .pbcmdCommit 192, .pbcmdAbandon 192, .clrfail 0 28, .registerWrite 0 0x1000000 8 0 false, .registerWrite 0 0 0 0 false,
    .windowBRead 0 0 9, .windowBWrite 0 0 [], .i3cPrivateWrite 192 0 0, .i3cPrivateRead 192 0,
    .gridstepSample 192 0, .walkStart 192, .walkStep 192, .pfail 192, .drainStart 192, .drainEnd 192, .resetRelease 192 ⟨⟨0, true, 0, 0, 0⟩, 0⟩, .resetRelease 0 ⟨⟨0, true, 0, 0, 0⟩, 10⟩,
    .clusterWake 192 true, .hbmTraining 192 0, .sramInitialisation 192 [], .sramInitialisation 0 [2048], .opticalTraining 0 [(28, 0)] [] [] [],
    .opticalTraining 0 [] [(2048, 0)] [] [], .opticalTraining 0 [] [] [192] [], .activate 0 16 0 0, .bankRefresh 0 16 0, .powerReturn 192,
    .missedFrame 192, .pageTableWrite 0 4 0 0, .domainConfiguration 0 4 DomCfg.zero] : List Instr).all (fun i => !i.wf) = true := by decide +kernel

/-! ### Decoding -/

/-- Every word of a list decodes to the instruction beside it. -/
def reads (l : List (IWord × Instr)) : Bool := l.all fun e => match decode e.1 with
  | .ok i => i == e.2
  | .error _ => false

/-- The words that the manual itself writes out as examples (R123, R144, R152, R173-R175, R177, R180, R210, R253, R276 and the notes). -/
theorem test_decode_examples : reads [
    (0x007302B3, (.add 5 6 7)),
    (0xFFF00293, (.addi 5 0 0xFFF)),
    (0x00713823, (.sd 7 2 16)),
    (0x00628463, (.beq 5 6 4)),
    (0x100002B7, (.lui 5 0x10000)),
    (0x010000EF, (.jal 1 8)),
    (0x0C73300B, (.gredFadds 6 7)),
    (0x00C0600B, (.stall 12)),
    (0x1005718B, (.vldpi 3 10 0)),
    (0x02E6012B, (.mma 2 12 14)),
    (0x080A102B, (.qrskip 20)),
    (0x3FC004FB, (.vli .f32 9 0x3FC0)),
    (0x0E00500B, (.rep 3 4 0)),
    (0x0E80500B, (.rep 3 5 0)),
    (0x0D40085B, (.vfma .bf16 16 0 8 0)),
    (0x0FF0000F, (.fence 0 15 15)),
    (0x8330000F, (.fence 8 3 3)),
    (0x0000100F, (.fenceI)),
    (0x00000073, (.ecall)),
    (0x00100073, (.ebreak)),
    (0xC83022F3, (.csrrs 5 0xC83 0)),
    (0x8012D073, (.csrrwi 0 0x801 5)),
    (0x0000105B, (.vfadd .f32 0 0 0 1)),
    (0x3900415B, (.vfcvt .bf16 .f32 2 1 0)),
    (0x6018415B, (.vcvtn 2 1 3 0)),
    (0xCE2141DB, (.vslup .i32 3 4 5 0)),
    (0xEE3A00DB, (.pwhilelt .i32 1 8 7)),
    (0xBE8051FB, (.vaddi .bf16 3 0xBE80)),
    (0x0404F00B, (.vld 0 9 1)),
    (0x2404F00B, (.vst 0 9 1)),
    (0x6865728B, (.vgath 5 10 6 2)),
    (0x8004F08B, (.pldr 1 9)),
    (0x0003028B, (.sync 5 6)),
    (0x0073200B, (.raddw 7 6)),
    (0x1073200B, (.send 6 7)),
    (0x1473228B, (.gfaa 5 7 6)),
    (0x4005000B, (.hret 10)),
    (0x0073300B, (.gredAddd 6 7)),
    (0x2003328B, (.gresAddd 5 6)),
    (0x4073300B, (.bst 6 7)),
    (0x4203328B, (.bld 5 6)),
    (0x0802938B, (.cptest 7 5)),
    (0x0003428B, (.tlook 5 6)),
    (0x0273400B, (.tins 6 7)),
    (0x0A3280AB, (.mwr 1 3 5)),
    (0x0A62902B, (.qrtld 5 6))] = true := by decide +kernel

/-- Words of the opcode table, rows 1 to 36 of those with an encoding: each field at a value of its own. -/
theorem test_decode_rows_1 : reads [
    (0x9C3A5237, .lui 4 0x9c3a5),
    (0x9C3A5397, .auipc 7 0x9c3a5),
    (0xCA65A56F, .jal 10 0xad253),
    (0xC35E06E7, .jalr 13 28 0xc35),
    (0xCB110363, .beq 2 17 0xa53),
    (0xCB839363, .bne 7 24 0xa53),
    (0xCBF64363, .blt 12 31 0xa53),
    (0xCA78D363, .bge 17 7 0xa53),
    (0xCAEB6363, .bltu 22 14 0xa53),
    (0xCB5DF363, .bgeu 27 21 0xa53),
    (0xC3508183, .lb 3 1 0xc35),
    (0xC3531303, .lh 6 6 0xc35),
    (0xC355A483, .lw 9 11 0xc35),
    (0xC3583603, .ld 12 16 0xc35),
    (0xC35AC783, .lbu 15 21 0xc35),
    (0xC35D5903, .lhu 18 26 0xc35),
    (0xC35FEA83, .lwu 21 31 0xc35),
    (0xA4F289A3, .sb 15 5 0xa53),
    (0xA56519A3, .sh 22 10 0xa53),
    (0xA5D7A9A3, .sw 29 15 0xa53),
    (0xA45A39A3, .sd 5 20 0xa53),
    (0xC35C8293, .addi 5 25 0xc35),
    (0xC35F2413, .slti 8 30 0xc35),
    (0xC3523593, .sltiu 11 4 0xc35),
    (0xC354C713, .xori 14 9 0xc35),
    (0xC3576893, .ori 17 14 0xc35),
    (0xC359FA13, .andi 20 19 0xc35),
    (0x038C1B93, .slli 23 24 56),
    (0x038EDD13, .srli 26 29 56),
    (0x4381DE93, .srai 29 3 56),
    (0xC354009B, .addiw 1 8 0xc35),
    (0x0186921B, .slliw 4 13 24),
    (0x0189539B, .srliw 7 18 24),
    (0x418BD51B, .sraiw 10 23 24),
    (0x00AE06B3, .add 13 28 10),
    (0x41110833, .sub 16 2 17)] = true := by decide +kernel

/-- Words of the opcode table, rows 37 to 72 of those with an encoding: each field at a value of its own. -/
theorem test_decode_rows_2 : reads [
    (0x018399B3, .sll 19 7 24),
    (0x01F62B33, .slt 22 12 31),
    (0x0078BCB3, .sltu 25 17 7),
    (0x00EB4E33, .xor 28 22 14),
    (0x015DDFB3, .srl 31 27 21),
    (0x41C0D1B3, .sra 3 1 28),
    (0x00436333, .or 6 6 4),
    (0x00B5F4B3, .and 9 11 11),
    (0x0128063B, .addw 12 16 18),
    (0x419A87BB, .subw 15 21 25),
    (0x001D193B, .sllw 18 26 1),
    (0x008FDABB, .srlw 21 31 8),
    (0x40F2DC3B, .sraw 24 5 15),
    (0x03650DB3, .mul 27 10 22),
    (0x03D79F33, .mulh 30 15 29),
    (0x025A2133, .mulhsu 2 20 5),
    (0x02CCB2B3, .mulhu 5 25 12),
    (0x033F4433, .div 8 30 19),
    (0x03A255B3, .divu 11 4 26),
    (0x0224E733, .rem 14 9 2),
    (0x029778B3, .remu 17 14 9),
    (0x03098A3B, .mulw 20 19 16),
    (0x037C4BBB, .divw 23 24 23),
    (0x03EEDD3B, .divuw 26 29 30),
    (0x0261EEBB, .remw 29 3 6),
    (0x02D470BB, .remuw 1 8 13),
    (0x8880000F, .fence 8 8 8),
    (0x0000100F, .fenceI),
    (0x00000073, .ecall),
    (0x00100073, .ebreak),
    (0x4B811873, .csrrw 16 1208 2),
    (0x4B83A9F3, .csrrs 19 1208 7),
    (0x4B863B73, .csrrc 22 1208 12),
    (0x4B8C5CF3, .csrrwi 25 1208 24),
    (0x4B8C6E73, .csrrsi 28 1208 24),
    (0x4B8C7FF3, .csrrci 31 1208 24)] = true := by decide +kernel

/-- Words of the opcode table, rows 73 to 108 of those with an encoding: each field at a value of its own. -/
theorem test_decode_rows_3 : reads [
    (0x0000818B, .sync 3 1),
    (0x0200000B, .exit),
    (0x0400000B, .trig),
    (0x0608000B, .launch 16),
    (0x080A800B, .abortreq 21),
    (0x400D000B, .hret 26),
    (0x000F9A8B, .cpget 21 31),
    (0x02029C0B, .cpput 24 5),
    (0x04051D8B, .cppeer 27 10),
    (0x0607900B, .cpwait 15),
    (0x080A110B, .cptest 2 20),
    (0x0A0C900B, .flist 25),
    (0x0D3F100B, .give 30 19),
    (0x01A2200B, .raddw 26 4),
    (0x0224A00B, .raddd 2 9),
    (0x0497200B, .rfadds 9 14),
    (0x0709A00B, .rmind 16 19),
    (0x097C200B, .rmaxd 23 24),
    (0x0BEEA00B, .rord 30 29),
    (0x0C61A00B, .randd 6 3),
    (0x0ED4200B, .rxord 13 8),
    (0x1146A00B, .send 13 20),
    (0x13B9200B, .redadd 27 18),
    (0x143BA50B, .gfaa 10 3 23),
    (0x00AE300B, .gredAddd 28 10),
    (0x0311300B, .gredMind 2 17),
    (0x0583B00B, .gredMaxd 7 24),
    (0x07F6300B, .gredAndd 12 31),
    (0x0878B00B, .gredOrd 17 7),
    (0x0AEB300B, .gredXord 22 14),
    (0x0D5DB00B, .gredFadds 27 21),
    (0x0FC0B00B, .gredFmins 1 28),
    (0x1043300B, .gredFmaxs 6 4),
    (0x2005B48B, .gresAddd 9 11),
    (0x2018360B, .gresMind 12 16),
    (0x202AB78B, .gresMaxd 15 21)] = true := by decide +kernel

/-- Words of the opcode table, rows 109 to 144 of those with an encoding: each field at a value of its own. -/
theorem test_decode_rows_4 : reads [
    (0x203D390B, .gresAndd 18 26),
    (0x204FBA8B, .gresOrd 21 31),
    (0x2052BC0B, .gresXord 24 5),
    (0x20653D8B, .gresFadds 27 10),
    (0x2077BF0B, .gresFmins 30 15),
    (0x208A310B, .gresFmaxs 2 20),
    (0x40CCB00B, .bst 25 12),
    (0x420F340B, .bld 8 30),
    (0x0002458B, .tlook 11 4),
    (0x0224C00B, .tins 9 2),
    (0x0407400B, .tdel 14),
    (0x0600400B, .tclr),
    (0x96C0500B, .rep 37 5 4),
    (0x4B80600B, .stall 1208),
    (0x0401FE8B, .vld 29 3 1),
    (0x1804708B, .vldpi 1 8 2),
    (0x2C06F20B, .vst 4 13 3),
    (0x3409738B, .vstpi 7 18 1),
    (0x483BF50B, .vlds 10 23 3 2),
    (0x5CAE768B, .vsts 13 28 10 3),
    (0x6511780B, .vgath 16 2 17 1),
    (0x7983F98B, .vscat 19 7 24 2),
    (0x8006728B, .pldr 5 12),
    (0x9008F28B, .pstr 5 17),
    (0x0175AE5B, .vfadd .bf16 28 22 14 2),
    (0x06AEFFDB, .vfsub .f16 31 27 21 3),
    (0x08E051DB, .vfmul .f32 3 1 28 1),
    (0x0D21A35B, .vfma .bf16 6 6 4 2),
    (0x125AF4DB, .vfnms .f16 9 11 11 3),
    (0x1494165B, .vfmin .f32 12 16 18 1),
    (0x19CD67DB, .vfmax .bf16 15 21 25 2),
    (0x1E06B95B, .vfabs .f16 18 26 3),
    (0x2007DADB, .vfneg .f32 21 31 1),
    (0x257962DB, .vfceq .bf16 5 5 15 2),
    (0x2AB2B2DB, .vfclt .f16 5 10 22 3),
    (0x2CEBD2DB, .vfcle .f32 5 15 29 1)] = true := by decide +kernel

/-- Words of the opcode table, rows 145 to 180 of those with an encoding: each field at a value of its own. -/
theorem test_decode_rows_5 : reads [
    (0x3105215B, .vfsumr .bf16 2 20 2),
    (0x360672DB, .vfmaxr .f16 5 25 3),
    (0x3927945B, .vfcvt .bf16 .i64 8 30 1),
    (0x3DD125DB, .vfcpys .bf16 11 4 26 2),
    (0x4202775B, .vfrcp .f16 14 9 3),
    (0x440398DB, .vfrsq .f32 17 14 1),
    (0x4904EA5B, .vfsqrt .bf16 20 19 2),
    (0x4EBE3BDB, .vfdiv .f16 23 24 23 3),
    (0x50075D5B, .vfexp2 .f32 26 29 1),
    (0x5500EEDB, .vflog2 .bf16 29 3 2),
    (0x5A0230DB, .vftanh .f16 1 8 3),
    (0x6003525B, .vcvtn 4 13 0 1),
    (0x6404A3DB, .vcvtw 7 18 0 2),
    (0x681DF55B, .vscale 10 23 3 3),
    (0x6C0716DB, .vbmax 13 28 0 1),
    (0x8088A85B, .vadd .i8 16 2 17 2),
    (0x85C1F9DB, .vsub .i16 19 7 24 3),
    (0x8AFB1B5B, .vmul .i32 22 12 31 1),
    (0x8F3C6CDB, .vmulh .i64 25 17 7 2),
    (0x9075BE5B, .vand .i8 28 22 14 3),
    (0x95AEDFDB, .vor .i16 31 27 21 1),
    (0x9AE061DB, .vxor .i32 3 1 28 2),
    (0x9F21B35B, .vsll .i64 6 6 4 3),
    (0xA05AD4DB, .vsrl .i8 9 11 11 1),
    (0xA594265B, .vsra .i16 12 16 18 2),
    (0xAACD77DB, .vmin .i32 15 21 25 3),
    (0xAF0E995B, .vmax .i64 18 26 1 1),
    (0xB047EADB, .vminu .i8 21 31 8 2),
    (0xB5797C5B, .vmaxu .i16 24 5 15 3),
    (0xBAB292DB, .viceq .i32 5 10 22 1),
    (0xBFEBE2DB, .viclt .i64 5 15 29 2),
    (0xC02D32DB, .vicltu .i8 5 20 5 3),
    (0xC46652DB, .vsel 5 25 12 1),
    (0xCA9FA45B, .vperm .i32 8 30 19 2),
    (0xCFD135DB, .vslup .i64 11 26 4 3),
    (0xD012575B, .vsldn .i8 14 2 9 1)] = true := by decide +kernel

/-- Words of the opcode table, rows 181 to 212 of those with an encoding: each field at a value of its own. -/
theorem test_decode_rows_6 : reads [
    (0xD54BA8DB, .vzip .i16 17 14 9 2),
    (0xDA84FA5B, .vunzip .i32 20 19 16 3),
    (0xDF001BDB, .viota .i64 23 1),
    (0xE0076D5B, .vdupx .i8 26 29 2),
    (0xE530CEDB, .vmvxs .i16 29 6 3),
    (0xEA0210DB, .visumr .i32 1 8 1),
    (0xEFA342DB, .pwhilelt .i64 5 13 20),
    (0xF030C2DB, .plogicAnd 5 3 6),
    (0xF130C2DB, .plogicOr 5 3 6),
    (0xF230C2DB, .plogicXor 5 3 6),
    (0xF330C2DB, .plogicAndn 5 3 6),
    (0xF400C9DB, .pcnt .i8 19 3),
    (0xF900C2DB, .pfirst .i16 5 3),
    (0xB5C68CFB, .vli .f16 25 0xb5c6),
    (0xB5C61E7B, .vaddi .f32 28 0xb5c6),
    (0xB5C66FFB, .vmuli .bf16 31 0xb5c6),
    (0xB5C6B1FB, .vmaxi .f16 3 0xb5c6),
    (0x000005AB, .mzero 11),
    (0x0365062B, .mma 12 10 22),
    (0x056506AB, .mmas 13 10 22),
    (0x0768072B, .mmav 14 16 22),
    (0x08FD092B, .mrd 18 15 26),
    (0x0A8F802B, .mwr 0 8 31),
    (0x0C15002B, .mst 1 10),
    (0x0E00012B, .mwait 2),
    (0x00079F2B, .qrv 30 15),
    (0x020A112B, .qrvf 2 20),
    (0x04CC92AB, .qrx 5 25 12),
    (0x0600102B, .qrnext),
    (0x0802102B, .qrskip 4),
    (0x0A24902B, .qrtld 9 2),
    (0x0C0018AB, .pipv 17)] = true := by decide +kernel


/-- Reserved words are refused: no opcode, a 16-bit word, a reserved shift field, an unassigned S-space operation, an odd pair (R125, R126). -/
theorem test_refused : [(0x00000000 : IWord), 0xFFFFFFFF, 0x00001001, 0x08000013 ||| 0x1000, 0x7E00000B, 0x0230812B].all (fun w => match decode w with
    | .ok _ => false
    | .error _ => true) = true := by decide +kernel

/-! ### A small machine -/

/-- A task about to issue `addi x1, x0, 1` at the entry of a placed launch: launch 0, tile 0, task 0. -/
def run : State := State.reset.withFetchWord 32 0x00100093

/-- With some x registers set. -/
def withX (s : State) (l : List (Reg × Word)) : State := l.foldl (fun s e => s.wx e.1 e.2) s

/-- With the launch changed. -/
def withL (s : State) (f : Launch → Launch) : State := s.modLaunch 0 f
/-- With the tile changed. -/
def withT (s : State) (f : Tile → Tile) : State := s.modTile 0 0 f
/-- With the task changed. -/
def withK (s : State) (f : Task → Task) : State := s.modTask s.cur f
/-- With package 0 changed. -/
def withP (s : State) (f : Pkg → Pkg) : State := s.modPkg 0 f
/-- With the launch's part on package 0 changed. -/
def withY (s : State) (f : LPkg → LPkg) : State := s.modLpkg 0 0 f

/-- Page tables that map, from the entry on, a program page, a writable page, a reduction page and a read-only page. -/
def labTables : Memory :=
  Memory.cells (0x10000 + 8 * 16) (natLe 8 0x20001) ++ Memory.cells 0x20000 (natLe 8 0x30001) ++
    Memory.cells (0x30000 + 8 * 0x100) (natLe 8 0x40001 ++ natLe 8 0x50003 ++ natLe 8 0x60005 ++ natLe 8 0x70001)

/-- Addresses of the four pages. -/
def vaText : Word := 0x0000100001000000
def vaData : Word := 0x0000100001010000
def vaRed : Word := 0x0000100001020000
def vaRead : Word := 0x0000100001030000

/-- The machine with those tables, a mailbox, a group of tile 0, and shadow pages for the writable pages. -/
def lab : State :=
  withL (withP run fun x => { x with hbm := labTables ++ Memory.cells 0x40000 (natLe 4 0x00100093) }) fun x =>
    { x with desc := { x.desc with mbSize := 2048, ngroups := 1 }, groups := [[0]],
             shadows := [{ home := 0, vpn := 0x10000101, ppn := 0x100000, old := 5 }, { home := 0, vpn := 0x10000102, ppn := 0x100001, old := 6 }] }

/-- The launch has counters on its program page. -/
def withCounters (s : State) : State := withL s fun x => { x with desc := { x.desc with ctrVa := vaText, ctrCount := 2 } }

/-- The answer is this value, or this error. -/
def okIs {E A : Type} [DecidableEq A] (r : Except E A) (a : A) : Bool := match r with
  | .ok b => b == a
  | .error _ => false
def errIs {E A : Type} [DecidableEq E] (r : Except E A) (e : E) : Bool := match r with
  | .ok _ => false
  | .error d => d == e

/-! ### The hypotheses of the statements can be met -/

theorem wit_encode : (Instr.addi 1 2 3).wf = true ∧ encode (.addi 1 2 3) = some 0x00310093 ∧ okIs (decode 0x00310093) (.addi 1 2 3) = true := by
  decide +kernel

theorem wit_step_agenda : let s := { run with agenda := [.issue (.thread 0 0 0)] }
    s.agenda = .issue (.thread 0 0 0) :: [] ∧ { s with agenda := [], cur := .thread 0 0 0 }.canIssue (.thread 0 0 0) = true ∧
    okIs (fetchAt { s with agenda := [], cur := .thread 0 0 0 } s.bank.pc) [0x93, 0x00, 0x10, 0x00] = true ∧ okIs (decode (wordOfBytes [0x93, 0x00, 0x10, 0x00])) (.addi 1 0 1) = true := by
  decide +kernel

theorem wit_step_empty : run.agenda = [] ∧ ∃ t, nextSlot run = some t ∧ t.canIssue t.cur = true ∧ okIs (fetchAt t t.bank.pc) [0x93, 0x00, 0x10, 0x00] = true :=
  ⟨rfl, { run with pace := { wheel := 1, turn := 0, issued := 1, mark := 0 } }, by decide +kernel⟩

theorem wit_step_illegal : let s := { State.reset.withFetchWord 32 0 with agenda := [] }
    s.canIssue s.cur = true ∧ okIs (fetchAt s s.bank.pc) [0, 0, 0, 0] = true ∧ errIs (decode (wordOfBytes [0, 0, 0, 0])) .lowBits = true := by decide +kernel

theorem wit_step_fetch_trap : let s := withK run fun k => { k with bank := { k.bank with pc := 2 } }
    s.canIssue s.cur = true ∧ errIs (fetchAt s s.bank.pc) (0x02, 2) = true := by decide +kernel

/-- A comparator that watches an address from which nothing can be fetched. -/
theorem wit_step_fetch_match : let s := (withK run fun k => { k with bank := { k.bank with pc := 0x0000100009000000 } }).setCmp 0 0 { hbrk := 0x401, pc := #v[0x0000100009000000, 0, 0, 0], sval := #v[0, 0, 0, 0] }
    s.canIssue s.cur = true ∧ errIs (fetchAt s s.bank.pc) (0x05, 0x0000100009000000) = true ∧ s.cmpMatch none = some 0 ∧ run.cmpMatch none = none := by
  decide +kernel

/-- A task whose next instruction is on a page of package 1, to which there is no path. -/
def farCode : State :=
  let s := withP run fun x => { x with hbm := labTables ++ Memory.cells (0x30000 + 8 * 0x104) (natLe 8 0x100019) }
  (withK s fun k => { k with bank := { k.bank with pc := 0x0000100001040000 } }).modPkg 1 fun x => { x with regions := (run.pkg 0).regions }

/-- Whether a copy of its line is at hand is a free value (log entry 53). -/
theorem wit_step_fetch_lost : farCode.canIssue farCode.cur = true ∧ okIs (fetchAt farCode farCode.bank.pc) [0, 0, 0, 0] = true ∧
    farCode.fetchLost = (if Config.dieHit (0x100000 / 64) farCode.free then none else some (0, 0)) := by
  have hm : farCode.remoteOf 0 0 farCode.bank.pc.toNat = some (1, 0x100000, false) := by decide +kernel
  have hr : farCode.route 0 1 0x100000 = none := by decide +kernel
  refine ⟨by decide +kernel, by decide +kernel, ?_⟩
  have hl : farCode.lostRead 0 0 farCode.bank.pc.toNat = !Config.dieHit (0x100000 / 64) farCode.free := by
    have ht : (BitVec.toNat (0x100000 : Word)) = 0x100000 := by decide
    unfold State.lostRead
    rw [hm]
    show ((farCode.route 0 1 0x100000).isNone && (false || !Config.dieHit (BitVec.toNat (0x100000 : Word) / 64) farCode.free)) = _
    rw [hr, ht]
    simp only [Option.isNone_none, Bool.true_and, Bool.false_or]
  have hc : farCode.cur = .thread 0 0 0 := by decide +kernel
  have hp : farCode.curP = 0 := by decide +kernel
  have hw : (farCode.heldWord farCode.bank.pc).isNone = true := by decide +kernel
  unfold State.fetchLost
  rw [hc, hp]
  simp only [hl, hw, Bool.true_and]
  cases Config.dieHit (0x100000 / 64) farCode.free <;> simp only [Bool.not_true, Bool.not_false, ite_true, ite_false, Bool.false_eq_true]

theorem wit_step_event : isEvent .visit = true ∧ Instr.visit.wf = true ∧ isEvent (.flit 0 28 0 [] []) = true ∧ (Instr.flit 0 28 0 [] []).wf = false := by
  decide +kernel

theorem wit_handlers_bounded : HandlersBounded { run with handlers := [((0, 5), { serving := none, queue := [(.thread 0 0 0, false)] })] } ∧
    ∃ t, step { run with handlers := [((0, 5), { serving := none, queue := [(.thread 0 0 0, false)] })] } = .next t := by
  refine ⟨fun p ph => ?_, ?_⟩
  · simp only [State.handler, Tab.get, Tab.find]
    split
    · rename_i h; split at h
      · simp only [Option.some.injEq] at h; subst h; decide
      · simp at h
    · simp [Handler.zero]
  · exact ⟨_, rfl⟩

theorem wit_integer : ([.addi 1 2 3, .addi 0 2 3, .slti 1 2 3, .sltiu 1 2 3, .xori 1 2 3, .ori 1 2 3, .andi 1 2 3, .slli 1 2 63, .srli 1 2 3, .srai 1 2 3, .addiw 1 2 3,
    .slliw 1 2 31, .srliw 1 2 3, .sraiw 1 2 3, .add 1 2 3, .sub 1 2 3, .sll 1 2 3, .slt 1 2 3, .sltu 1 2 3, .xor 1 2 3, .srl 1 2 3, .sra 1 2 3,
    .or 1 2 3, .and 1 2 3, .addw 1 2 3, .subw 1 2 3, .sllw 1 2 3, .srlw 1 2 3, .sraw 1 2 3, .mul 1 2 3, .mulh 1 2 3, .mulhsu 1 2 3,
    .mulhu 1 2 3, .mulw 1 2 3, .lui 1 2, .auipc 0 2] : List Instr).all (fun i => run.readyFor i && (intValue run.rx run.bank.pc i).isSome) = true := by
  decide +kernel

theorem wit_divide : run.cur.wf = true ∧ (run.task run.cur).pend = [] ∧ ([.div 1 2 3, .divu 0 2 3, .rem 1 2 3, .remu 1 2 3, .divw 1 2 3, .divuw 1 2 3,
    .remw 1 2 3, .remuw 1 2 3] : List Instr).all (fun i => run.readyFor i && (divValue run.rx i).isSome) = true := by decide +kernel

/-- Taken to an aligned target, not taken, and taken to a target with bit 1 set. -/
theorem wit_jumps : let s := withX run [(1, 1)]
    ([.jal 1 4, .jalr 1 0 4, .beq 0 0 4, .bne 0 1 4, .blt 0 1 4, .bge 1 0 4, .bltu 0 1 4, .bgeu 1 0 4] : List Instr).all (fun i => s.readyFor i &&
      match jumpOf s.rx s.bank.pc i with | some (_, a, t) => t && !a.getLsbD 1 | none => false) = true ∧
    ([.beq 0 1 4, .bne 0 0 4, .blt 1 0 4, .bge 0 1 4, .bltu 1 0 4, .bgeu 0 1 4] : List Instr).all (fun i => s.readyFor i &&
      match jumpOf s.rx s.bank.pc i with | some (_, _, t) => !t | none => false) = true ∧
    ([.jal 1 1, .jalr 1 0 2, .beq 0 0 3] : List Instr).all (fun i => s.readyFor i &&
      match jumpOf s.rx s.bank.pc i with | some (_, a, t) => t && a.getLsbD 1 | none => false) = true := by decide +kernel

theorem wit_fence_calls : run.readyFor (.fence 8 3 3) = true ∧ run.readyFor .fenceI = true ∧ run.readyFor .ecall = true ∧ run.readyFor .ebreak = true ∧
    run.canIssue run.cur = true ∧ run.cur = .thread 0 0 0 := by decide +kernel

/-- Each clause of what is illegal: an accumulator the task does not own, a CSR it may not write, HRET in a thread slot; and a word that a
handler slot may not run. -/
theorem wit_illegal : let s := withL run fun x => { x with desc := { x.desc with accs := 4 } }
    s.canIssue s.cur = true ∧ ([.mzero 4, .csrrw 1 0xC80 2, .hret 1] : List Instr).all (fun i => (encode i).isSome && !legal s.inHandler s.accs i) = true ∧
    legal true 0 (.sync 1 2) = false ∧ legal true 0 (.hret 1) = true := by decide +kernel

/-- Words that break an operand rule of R125, and words that a handler slot may and may not run. -/
theorem wit_illegal_words : ([.vfcvt .f32 .f32 1 2 0, .vaddi .fp8 1 0, .mma 0 3 2, .mmav 0 8 2, .rep 0 0 5] : List Instr).all (fun i => (encode i).isSome && !i.wf) = true ∧
    (run.canIssue run.cur = true ∧ run.inHandler = false ∧ (0x823 : Nat) ∈ csrRW ∧ (0xC80 : Nat) ∈ csrRO ∧ (0x7C0 : Nat) ∉ csrRO ++ csrRW) ∧
    handlerMay 0x00100093 ∧ ¬handlerMay 0x0002820B := by
  refine ⟨by decide +kernel, by decide +kernel, by unfold handlerMay; decide, by unfold handlerMay; decide⟩

/-- A task with short reads of x2 at distance 1 and of x3 at distance 2. -/
def short (mode : BitVec 2) : State := withK (withX run [(2, 5), (3, 6)]) fun k =>
  { k with bank := { k.bank with stallchk := mode },
           haz := [{ reg := { file := .x, num := 2 }, lat := 3, dist := 0, old := 0 }, { reg := { file := .x, num := 3 }, lat := 3, dist := 1, old := 1 }] }

theorem wit_short : ∀ mode ∈ [(0 : BitVec 2), 1, 2], issuesShort (short mode) (.add 1 2 3) ∧ (short mode).bank.stallchk = mode ∧
    (intValue (short mode).rx (short mode).bank.pc (.add 1 2 3)).isSome = true := by
  refine onList_cons ?_ (onList_cons ?_ (onList_cons ?_ onList_nil)) <;> unfold issuesShort <;> and_intros <;> rfl

theorem wit_short_first : let h : Haz := { reg := { file := .x, num := 2 }, lat := 3, dist := 0, old := 0 }
    let s := short 1
    shortAt (s.task s.cur) (.add 1 2 3) h 1 ∧ ∀ g e, shortAt (s.task s.cur) (.add 1 2 3) g e → (g, e) ≠ (h, 1) → reportedBefore (h, 1) (g, e) := by
  have hz : ((short 1).task (short 1).cur).haz = [{ reg := { file := .x, num := 2 }, lat := 3, dist := 0, old := 0 }, { reg := { file := .x, num := 3 }, lat := 3, dist := 1, old := 1 }] := by
    decide +kernel
  refine ⟨⟨by rw [hz]; simp, by decide, by decide, by decide⟩, fun g e hg ne => ?_⟩
  obtain ⟨hm, -, rfl, -⟩ := hg
  rw [hz] at hm
  cases hm with
  | head => exact absurd rfl ne
  | tail _ hm => cases hm with
    | head => exact .inl (by decide)
    | tail _ hm => nomatch hm

/-- Comparators 0 and 3 of tile 0 watch the pc; comparator 3 alone, in each SMODE. -/
def watched (hbrk : Word) : State := run.setCmp 0 0 { hbrk := hbrk, pc := #v[run.bank.pc, 0, 0, run.bank.pc], sval := #v[0, 0, 0, 0] }

theorem wit_comparators : (watched 0x0401000000000401).canIssue run.cur = true ∧ (watched 0x0401000000000401).cmpMatch none = some 0 ∧
    (watched 0x0401000000000000).cmpMatch none = some 3 ∧ (watched 0x0501000000000000).cmpMatch none = some 3 ∧ (watched 0x0601000000000000).cmpMatch none = none ∧
    (watched 0x0801000000000000).cmpMatch none = none ∧ (watched 0x0401000000000401).cur = .thread 0 0 0 ∧ (run.task run.cur).noCmp = false := by decide +kernel

theorem wit_trap : run.cur = .thread 0 0 0 ∧ (0x08 : BitVec 8) ≠ 0x03 ∧ ¬((0x08 : BitVec 8) = 0x0B ∧ (0 : Word) ≠ 1) ∧ ¬((0x0B : BitVec 8) = 0x0B ∧ (1 : Word) ≠ 1) := by
  decide +kernel

theorem wit_stall : run.readyFor (.stall 12) = true ∧ run.cur.wf = true := by decide +kernel

theorem wit_csr : ([.csrrw 1 0x801 2, .csrrs 1 0xC83 0, .csrrc 1 0x802 2, .csrrwi 1 0x801 5, .csrrsi 1 0x802 1, .csrrci 1 0x802 0] : List Instr).all
      (fun i => run.readyFor i && match csrOf run.rx i with | some (_, c, f) => !run.csrBusy c (f (run.csrRead c)).isSome | none => false) = true ∧
    (let s := withT run fun x => { x with sfu := [{ task := 0, fn := 0x10, es := .f32, vd := 1, a := 0, b := 0, old := 0, act := 0, rmode := 0, trapen := 0, pc := 0, rep := none }] }
     s.readyFor (.csrrs 1 0x800 0) = true ∧ s.csrBusy 0x800 false = true ∧ s.readyFor (.csrrw 1 0x802 2) = true ∧ s.csrBusy 0x802 true = true) := by
  decide +kernel

/-- Writable CSRs of a thread slot at the ends of their ranges. -/
theorem wit_csr_write : [0x800, 0x804, 0x810, 0x817, 0x820, 0x832].all (fun c => csrWritable c && !csrHandler c) = true := by decide +kernel

/-- A handler slot on tile 1 that serves a trap of task 0 on tile 0. -/
def serving : State :=
  let r : TrapRec := { cause := 0x08, pc := vaText, tval := 0, inrep := false, cmp := none, alt := false, det := false, rerun := false, serial := false, delivered := true }
  { (withK lab fun k => { k with status := .frozen r }) with
    cur := .handler 0 1, handlers := [((0, 1), { serving := some (.thread 0 0 0, false), queue := [] })],
    tasks := [(.thread 0 0 0, { startTask placedDesc with status := .frozen r }), (.handler 0 1, { Task.zero with bank := { Bank.zero with pc := vaRead }, status := .running })] }

theorem wit_handler : serving.cur = .handler 0 1 ∧ serving.inHandler = true ∧ serving.served.isSome = true ∧ serving.readyFor (.hret 1) = true ∧ serving.readyFor (.ld 1 2 0) = true ∧
    serving.readyFor (.sd 1 2 0) = true ∧ serving.servedLaunch 0 1 = 0 := by decide +kernel

/-- A trap of the slot while another waits, and a stream skew of a launch that may restart. -/
theorem wit_handler_trap : serving.cur = .handler 0 1 ∧ (serving.handler 0 1).serving = some (.thread 0 0 0, false) ∧
    (match (serving.task (.thread 0 0 0)).status with | .frozen r => r.cause == 0x08 | _ => false) = true ∧ run.cur = .thread 0 0 0 ∧
    ((run.launch 0).desc.replay = false ∧ (run.launch 0).holdTiles = false) ∧
    (let s := withL run fun x => { x with desc := { x.desc with flags := 2 } }
     (s.launch 0).desc.replay = true ∧ (s.launch 0).restarts < (s.launch 0).desc.limit ∧ (s.launch 0).trigs = [] ∧ (s.launch 0).outward = false) := by decide +kernel

theorem wit_no_flips : noneFlips run 0 := by
  have h : run.pkgs.all (fun e => e.2.tx.isEmpty && e.2.rx.isEmpty) = true := by decide +kernel
  intro e he
  have := List.all_eq_true.mp h e he
  simp only [Bool.and_eq_true, List.isEmpty_iff] at this
  exact .inr ⟨by simp [this.1], by simp [this.2]⟩

/-- Global accesses of a handler slot: to a data page, to no page, and outside the global region. -/
theorem wit_handler_global : let s := withX serving [(2, vaData), (3, 0x0000100009000000), (4, 8), (5, vaRead)]
    let g : Page := { home := 0, ppn := 5, pte := 0x50003 }
    s.cur = .handler 0 1 ∧ s.tilePkg 0 0 = 0 ∧ s.readyFor (.ld 1 2 0) = true ∧ s.readyFor (.sd 1 2 0) = true ∧ isGlob (s.rx 2).toNat = true ∧
      s.xlate 0 0 (s.rx 2).toNat = some g ∧ pteSec g.pte = false ∧ s.physOk g (s.launch 0).dom = true ∧ s.lostRead 0 0 (s.rx 2).toNat = false ∧
      pteW g.pte = true ∧ s.isRed 0 g (s.rx 2).toNat = false ∧ (s.launch 0).inCounters (s.rx 2).toNat = false ∧
      ((s.launch 0).shadows.any fun h => h.home == 0 && h.vpn == (s.rx 2).toNat / 65536) = true ∧
      isGlob (s.rx 3).toNat = true ∧ s.xlate 0 0 (s.rx 3).toNat = none ∧ isGlob (s.rx 4).toNat = false ∧
      (match s.xlate 0 0 (s.rx 5).toNat with | some h => !pteW h.pte | none => false) = true := by decide +kernel

/-- Window addresses: a register of the bank, a comparator, and one past the bank. -/
theorem wit_window : let s := withX serving [(2, 0xFFFFF00000000000), (3, 0xFFFFF00000080000), (4, 0xFFFFF00000002400)]
    s.winPlace (s.rx 2).toNat = some (.bank 0) ∧ s.winBusy (.bank 0) = false ∧ s.winPlace (s.rx 3).toNat = some (.tileArea 0) ∧ s.winBusy (.tileArea 0) = false ∧
    s.winPlace (s.rx 4).toNat = none ∧ s.readyFor (.ld 1 4 0) = true ∧ loadOf (.ld 1 4 0) = some (1, 4, 0, 8, true) ∧ storeOf (.sd 1 4 0) = some (1, 4, 0, 8) := by
  decide +kernel

/-! ### Loads and stores -/

theorem wit_load_own : let s := withX run [(2, 0x1DFFF8)]
    run.cur = .thread 0 0 0 ∧ ([(.lb 1 2 7, 7, 1), (.lh 1 2 6, 6, 2), (.lw 0 2 4, 4, 4), (.ld 1 2 0, 0, 8), (.lbu 1 2 7, 7, 1), (.lhu 1 2 6, 6, 2), (.lwu 1 2 4, 4, 4)] :
      List (Instr × Nat × Nat)).all (fun e => s.readyFor e.1 && (loadOf e.1).isSome && decide ((0x1DFFF8 + e.2.1) % e.2.2 = 0) &&
        decide (0x1DFFF8 + e.2.1 + e.2.2 ≤ (s.launch 0).desc.tmSize) && !((s.tile 0 0).owner (0x1DFFF8 + e.2.1)).isEngine) = true ∧
    (s.task s.cur).mreq = [] := by decide +kernel

theorem wit_load_far : let s := withX lab [(2, vaData), (3, 0x100000000000), (4, 0x100000010000), (5, 0x10000000000)]
    s.readyFor (.ld 1 2 0) = true ∧ s.readyFor (.ld 0 2 0) = true ∧ (s.task s.cur).pend = [] ∧
    (∃ g, s.xlate 0 (s.tilePkg 0 0) (s.rx 2).toNat = some g ∧ pteSec g.pte = false ∧ s.physOk g (s.launch 0).dom = true) ∧
    regionOf (s.launch 0).desc.tmSize (s.launch 0).desc.ntile (s.rx 3).toNat = .devInfo 0 ∧ regionOf (s.launch 0).desc.tmSize (s.launch 0).desc.ntile (s.rx 4).toNat = .l2p 0 ∧
    regionOf (s.launch 0).desc.tmSize (s.launch 0).desc.ntile (s.rx 5).toNat = .peer 0 0 ∧ (s.tile 0 0).retired = false :=
  ⟨by decide +kernel, by decide +kernel, by decide +kernel, ⟨{ home := 0, ppn := 5, pte := 0x50003 }, by decide +kernel⟩, by decide +kernel⟩

/-- One address for each trap of a scalar access: misaligned, outside every region, the handler window, read-only pages, a retired tile's, an
unmapped page, a block the task does not own. -/
theorem wit_access_traps : let s := withX (withT lab fun x => { x with retired := true, ownCur := .ro :: x.ownCur.tail }) [(2, 1), (3, 0x1E0000), (4, 0xFFFFF00000000000), (5, 0x100000000000), (6, 0x10000000000), (7, 0x0000100009000000), (8, 8)]
    let reg := fun r => regionOf (s.launch 0).desc.tmSize (s.launch 0).desc.ntile (s.rx r).toNat
    s.readyFor (.ld 1 2 0) = true ∧ s.readyFor (.sd 1 2 0) = true ∧ (s.rx 2).toNat % 8 ≠ 0 ∧ reg 3 = .none ∧ reg 4 = .handlerWin ∧ reg 5 = .devInfo 0 ∧ reg 6 = .peer 0 0 ∧
      (s.tile 0 0).retired = true ∧ reg 7 = .glob ∧ s.xlate 0 (s.tilePkg 0 0) (s.rx 7).toNat = none ∧ reg 8 = .own 8 ∧ (s.tile 0 0).owner 8 ≠ .own 0 := by decide +kernel

/-- A path of one hop from port 27 (R335). -/
def pathWord : BitVec 64 := 1#64 ||| (27#64 <<< 42) ||| (1#64 <<< 48)

/-- A load from a tile of another package, to which there is no path and then one. -/
def farTile (paths : List (Nat × BitVec 64)) : State :=
  withX (withP (withL run fun x => { x with desc := { x.desc with ntile := 2 }, pkgs := [0, 1], lp := x.lp ++ [(1, x.lp.head?.elim LPkg.zero (·.2))] }) fun x => { x with paths := paths })
    [(5, 0x10000200000), (6, 7)] |>.modTile 0 1 fun x => { x with phys := 2048 }

theorem wit_load_lost : let s := farTile []
    s.readyFor (.ld 1 5 0) = true ∧ (s.task s.cur).pend = [] ∧ regionOf (s.launch 0).desc.tmSize (s.launch 0).desc.ntile (s.rx 5).toNat = .peer 1 0 ∧
    (s.tile 0 1).retired = false ∧ s.tilePkg 0 1 = 1 ∧ s.lostRead 0 (s.tilePkg 0 0) (s.rx 5).toNat = true ∧
    (let t := farTile [(4, pathWord)]; t.lostRead 0 (t.tilePkg 0 0) (t.rx 5).toNat = false ∧ (t.route 0 1 0x10000200000).isSome = true) := by decide +kernel

theorem wit_store_own : let s := withX run [(2, 0x1DFFF8)]
    ([(.sb 3 2 7, 7, 1), (.sh 3 2 6, 6, 2), (.sw 3 2 4, 4, 4), (.sd 3 2 0, 0, 8)] : List (Instr × Nat × Nat)).all (fun e => s.readyFor e.1 && (storeOf e.1).isSome &&
      decide (0x1DFFF8 + e.2.1 + e.2.2 ≤ (s.launch 0).desc.tmSize) && decide ((s.tile 0 0).owner (0x1DFFF8 + e.2.1) = .own 0)) = true ∧ (s.task s.cur).mreq = [] := by
  decide +kernel

theorem wit_store_far : let s := withX lab [(2, vaData), (5, 0x10000000000)]
    let g : Page := { home := 0, ppn := 5, pte := 0x50003 }
    s.readyFor (.sd 3 2 0) = true ∧ isGlob (s.rx 2).toNat = true ∧ s.xlate 0 (s.tilePkg 0 0) (s.rx 2).toNat = some g ∧ g.home = s.tilePkg 0 0 ∧ pteSec g.pte = false ∧
      pteW g.pte = true ∧ s.physOk g (s.launch 0).dom = true ∧ s.isRed 0 g (s.rx 2).toNat = false ∧ (s.launch 0).inCounters (s.rx 2).toNat = false ∧
      ((s.launch 0).shadows.any fun h => h.home == g.home && h.vpn == (s.rx 2).toNat / 65536) = true ∧
      regionOf (s.launch 0).desc.tmSize (s.launch 0).desc.ntile (s.rx 5).toNat = .peer 0 0 ∧ (s.tile 0 0).retired = false := by decide +kernel


/-- Stores that leave the package, on a path and on none; and the first store to a page. -/
theorem wit_store_leaves : let s := farTile [(4, pathWord)]
    s.readyFor (.sd 6 5 0) = true ∧ s.tilePkg 0 1 ≠ s.tilePkg 0 0 ∧ (s.route 0 1 0x10000200000).isSome = true ∧ ((farTile []).route 0 1 0x10000200000).isSome = false ∧
    (let u := withX (withL lab fun x => { x with shadows := [] }) [(2, vaData)]
     u.readyFor (.sd 3 2 0) = true ∧ (u.launch 0).shadows = [] ∧ (((u.pkg 0).pool 0).take 0 0).isSome = true ∧
       ((((withP u fun x => x.modPool 0 fun o => { o with size := 0 }).pkg 0).pool 0).take 0 0).isSome = false) := by decide +kernel

/-! ### Supersteps, traps' return, copies -/

theorem wit_sync_exit : run.readyFor (.sync 1 2) = true ∧ (run.rx 2).toNat < 8 ∧ 8 ≤ ((withX run [(2, 8)]).rx 2).toNat ∧ (withX run [(2, 8)]).readyFor (.sync 1 2) = true ∧
    run.readyFor .exit = true := by decide +kernel

theorem wit_trig_abort : run.readyFor .trig = true ∧ run.readyFor (.abortreq 1) = true ∧
    (withY run fun y => { y with req := some (0, 0, 5, 1) }).readyFor (.abortreq 1) = true := by decide +kernel

/-- LAUNCH: each trap, a queue with room and a full one (64 entries reserved). -/
theorem wit_launch : let s := withX lab [(1, 4), (2, 64), (3, 0x0000100009000000), (4, vaData)]
    let p := s.curP
    s.readyFor (.launch 1) = true ∧ (s.rx 1).toNat % 64 ≠ 0 ∧ (s.rx 2).toNat % 64 = 0 ∧ isGlob (s.rx 2).toNat = false ∧
      (s.rx 3).toNat % 64 = 0 ∧ isGlob (s.rx 3).toNat = true ∧ s.xlate s.curL p (s.rx 3).toNat = none ∧
      (∀ k, k < 256 → isGlob ((s.rx 4).toNat + k) = true ∧ s.xlate s.curL p ((s.rx 4).toNat + k) ≠ none) ∧
      (let x := ((s.pkg p).dom 0).queue ((s.globByte s.curL p ((s.rx 4).toNat + 5)).toNat % 8)
       x.entries.length + x.reserved < 64) ∧
      (let u := s.modQueue 0 0 0 (fun q => { q with reserved := 64 })
       u.readyFor (.launch 4) = true ∧ 64 ≤ (((u.pkg p).dom 0).queue ((u.globByte s.curL p ((u.rx 4).toNat + 5)).toNat % 8)).reserved) := by decide +kernel

/-- A trap raised in a repetition of a REP word. -/
def repTrap : TrapRec := { cause := 0x0A, pc := placedDesc.entry, tval := 0, inrep := true, cmp := none, alt := false, det := false, rerun := false, serial := false, delivered := true }

/-- A handler slot that serves it, with `n` repetitions left. -/
def servingRep (n : BitVec 7) : State :=
  let k : Task := { startTask placedDesc with bank := { startBank placedDesc with repRemain := n }, status := .frozen repTrap }
  { serving with tasks := [(.thread 0 0 0, k), (.handler 0 1, { Task.zero with status := .running })] }

/-- HRET from a handler slot, for a trap outside a repetition and for one in the first or last repetition of a REP word. -/
theorem wit_hret : serving.cur = .handler 0 1 ∧ serving.readyFor (.hret 1) = true ∧
    (match serving.served with | some (.thread 0 0 0, r) => !r.inrep | _ => false) = true ∧
    ∀ n ∈ [1#7, 2#7], (servingRep n).readyFor (.hret 1) = true ∧
      (match (servingRep n).served with | some (.thread 0 0 0, r) => r.inrep && ((servingRep n).task (.thread 0 0 0)).bank.pc == r.pc | _ => false) = true := by decide +kernel

/-- HRET where the handler has written another HPC inside a repetition, with another trap waiting, in an open superstep. -/
theorem wit_hret_moved :
    let s := (servingRep 2).modTask (.thread 0 0 0) fun k => { k with bank := { k.bank with pc := k.bank.pc + 4 } }
    let u := { s with handlers := [((0, 1), { serving := some (.thread 0 0 0, false), queue := [(.thread 0 0 1, false)] })] }
    s.readyFor (.hret 1) = true ∧ (match s.served with | some (.thread 0 0 0, r) => r.inrep && (s.task (.thread 0 0 0)).bank.pc != r.pc | _ => false) = true ∧
    u.readyFor (.hret 1) = true ∧ (u.handler 0 1).queue = [(.thread 0 0 1, false)] ∧ (u.task u.cur).rep = none ∧ (serving.lpkg 0 0).phase = .compute := by decide +kernel

/-- A descriptor at offset 0x1000: 64 bytes at `va` and at offset 0x2000, one row. -/
def copyBytes (va : Word) : List Byte :=
  natLe 8 va.toNat ++ natLe 4 0x2000 ++ natLe 4 64 ++ natLe 4 1 ++ natLe 4 64 ++ natLe 4 64 ++ natLe 4 0

/-- The machine with that descriptor. -/
def copyLab (va : Word) : State := withX (withT lab fun x => { x with tm := Memory.cells 0x1000 (copyBytes va) }) [(2, 0x1000), (3, 1), (4, 0x1E0000), (5, 0x3000)]

theorem wit_copy_traps : let s := copyLab vaData
    s.readyFor (.cpget 1 3) = true ∧ (s.rx 3).toNat % 32 ≠ 0 ∧ (s.rx 4).toNat % 32 = 0 ∧ (s.launch 0).desc.tmSize < (s.rx 4).toNat + 32 ∧
    (s.rx 5).toNat % 32 = 0 ∧ (s.task s.cur).mreq = [] ∧ ((s.tile 0 0).owner 0x3000).isEngine = false ∧ copyOk (s.ownBytes 0 0 0 0x3000 32) true = false := by decide +kernel

theorem wit_copies : (∀ e ∈ [(Instr.cpget 1 2, CopyKind.get, vaData), (.cpput 0 2, .put, vaData), (.cppeer 1 2, .peer, 0x10000000000)],
    let s := copyLab e.2.2
    let c := copyDescOf (s.ownBytes 0 0 0 0x1000 32)
    s.cur = .thread 0 0 0 ∧ s.readyFor e.1 = true ∧ (copyOf e.1).isSome = true ∧ copyOk (s.ownBytes 0 0 0 0x1000 32) (e.2.1 == .get) = true ∧
    (s.tile 0 0).copies.length < 256 ∧ s.remoteCheck e.2.1 c = none ∧ s.tmCheck (fun _ o => copyOwner e.2.1 0 o) c.ranges = none) := by decide +kernel

/-- A copy of the task's, served and about to complete. -/
def copyCp : Copy := { task := 0, tag := 0, kind := .get, desc := copyDescOf (copyBytes vaData), ring := [] }

theorem wit_copy_complete : let s := withT lab fun x => { x with copies := [copyCp] }
    copyCp.task < 4 ∧ (s.tile 0 0).copies = [copyCp] ∧ copyCp.ring = [] ∧ copyCp.kind = .get ∧ copyCp.desc.layout.toNat % 4 = 0 ∧ copyCp.desc.bytes ≤ copyCp.desc.tpitch ∧
    s.readyFor (.cpwait 1) = true ∧ s.readyFor (.cptest 1 2) = true ∧ (∃ c ∈ s.curTile.copies, c.task = s.curI ∧ c.tag.toNat ≤ (s.rx 1).toNat) ∧ lab.curTile.copies = [] ∧
    Tab.find s.tiles (0, 0) ≠ none ∧ (s.tile 0 0).phys / 16 = 0 % 256 * 128 + 0 * 16 + 0 := by decide +kernel

/-- A CCE round: a ring that a round serves in part, one with a line that has to come from package 1 on no path. -/
theorem wit_cce_round :
    let s := withT (farTile []) fun x => { x with weight := 1, copies := [{ copyCp with ring := [(0x2000, 64), (0x2040, 4096)] }] }
    let u := withT (farTile []) fun x => { x with weight := 1, copies := [{ copyCp with ring := [(0x10000200000, 64)] }] }
    (s.tile 0 0).phys / 16 = 0 ∧ (s.tile 0 0).servedLines.all (fun a => !s.lostRead 0 0 a) = true ∧ (u.tile 0 0).servedLines.any (fun a => u.lostRead 0 0 a) = true ∧
    (u.lpkg 0 0).phase = .compute := by decide +kernel

theorem wit_give : let s := withX (withT lab fun x => { x with ownCur := x.ownCur.set 1 .ro }) [(1, 0x1E0000), (2, 2048), (3, 0), (4, 9)]
    s.readyFor (.give 1 2) = true ∧ (s.launch 0).desc.tmSize ≤ (s.rx 1).toNat ∧ (s.rx 2).toNat < (s.launch 0).desc.tmSize ∧ (s.tile 0 0).owner (s.rx 2).toNat ≠ .own 0 ∧
    (s.launch 0).desc.tasks ≤ (s.rx 4).toNat ∧ (s.rx 3).toNat < (s.launch 0).desc.tasks ∧ (s.tile 0 0).owner (s.rx 3).toNat = .own 0 := by decide +kernel

/-- A fetch list of one entry at offset 0x800, an empty one at 0x4000, one of 1,025 entries at 0x6000. -/
def flistLab : State := withX (withT lab fun x => { x with tm := Memory.cells 0x800 (natLe 4 1) ++ Memory.cells 0x820 (copyBytes vaData) ++ Memory.cells 0x6000 (natLe 4 1025) })
  [(1, 0x800), (2, 1), (3, 0x4000), (4, 0x6000)]

theorem wit_flist : let s := flistLab
    s.readyFor (.flist 1) = true ∧ (s.rx 2).toNat % 32 ≠ 0 ∧ (s.task s.cur).mreq = [] ∧ leBytes 4 (fun k => s.ownByte 0 0 0 (0x6000 + k)) = 1025 ∧
    leBytes 4 (fun k => s.ownByte 0 0 0 (0x4000 + k)) = 0 ∧ leBytes 4 (fun k => s.ownByte 0 0 0 (0x800 + k)) = 1 ∧
    s.curTile.lowestBad (fun _ w => !w.isEngine) [{ lo := 0x800, hi := 0x800 + 31 + 32 * 1 }] = none ∧
    (∀ e, e < 1 → copyOk (s.ownBytes 0 0 0 (0x800 + 32 + 32 * e) 32) true = true) ∧
    (let d := copyDescOf (s.ownBytes 0 0 0 0x820 32)
     s.remoteCheck .get d = none ∧ s.tmCheck s.fetchOwner d.ranges = none) := by decide +kernel

/-! ### Atomics, messages, reductions, tables, REP -/

theorem wit_atomics : let s := withX lab [(1, 1), (2, 8), (3, 0x10000000000), (4, vaData)]
    let reg := fun r => regionOf (s.launch 0).desc.tmSize (s.launch 0).desc.ntile (s.rx r).toNat
    ([.raddw 5 2, .raddd 5 2, .rfadds 5 2, .rmind 5 2, .rmaxd 5 2, .rord 5 2, .randd 5 2, .rxord 5 2] : List Instr).all (fun i => s.readyFor i && (atomicOf i).isSome) = true ∧
    (s.rx 1).toNat % 8 ≠ 0 ∧ reg 2 = .own 8 ∧ reg 3 = .peer 0 0 ∧ (s.tile 0 0).retired = false ∧ ((withT s fun x => { x with retired := true }).tile 0 0).retired = true ∧
    reg 4 = .glob ∧ (∀ op ∈ [AOp.addw, .addd, .mind, .maxd, .ord, .andd, .xord], (atomicValue op 5 7).isSome = true) := by decide +kernel

/-- Two deltas to one byte, of keys in order; an RFADDS; a message that fits and one that does not. -/
theorem wit_commit_effects :
    let a : Pend := { tile := 0, task := 0, seq := 0, eff := .tmWrite 0 true 8 [1, 2] }
    let b : Pend := { tile := 0, task := 1, seq := 0, eff := .tmWrite 0 false 9 [3] }
    Pend.lt a b = true ∧ Pend.lt b a = false ∧
    (∀ e ∈ [(0, 0, true), (2000, 0, true), (2016, 0, false), (10, 10, true)],
      let x : Tile := { Tile.zero with mbTail := e.1, mbHead := e.2.1 }
      x.mbTail < 2048 ∧ (16 + ((5 : Nat) + 15) / 16 * 16 ≤ 2048 - 16 - (x.mbTail + 2048 - x.mbHead) % 2048 ↔ e.2.2 = true)) := by decide +kernel

/-- SEND: every trap, a tile, a group, an empty payload. -/
theorem wit_send : let s := withX lab [(1, 0x1000), (2, 16 * 2 ^ 32), (3, 2 ^ 63 + 16 * 2 ^ 32), (4, 4097 * 2 ^ 32), (5, 8), (6, 1 + 16 * 2 ^ 32), (7, 2 ^ 63 + 1 + 16 * 2 ^ 32), (8, 0)]
    let n := fun r => (s.rx r).toNat / 2 ^ 32 % 2 ^ 16
    let g := fun r => (s.rx r).toNat % 2 ^ 32
    s.readyFor (.send 1 2) = true ∧ 4096 < n 4 ∧ n 2 = 16 ∧ (s.rx 2).toNat / 2 ^ 48 % 2 ^ 15 = 0 ∧ (s.launch 0).desc.mbSize ≠ 0 ∧ (run.launch 0).desc.mbSize = 0 ∧
    (s.rx 5).toNat % 16 ≠ 0 ∧ (s.rx 1).toNat % 16 = 0 ∧ s.tmCheck (fun _ o => !o.isEngine) [{ lo := 0x1000, hi := 0x1000 + 15 }] = none ∧ (s.task s.cur).mreq = [] ∧
    (s.rx 2).getLsbD 63 = false ∧ (s.rx 3).getLsbD 63 = true ∧ g 2 < (s.launch 0).desc.ntile ∧ (s.launch 0).desc.ntile ≤ g 6 ∧ g 3 < (s.launch 0).desc.ngroups ∧
    (s.launch 0).desc.ngroups ≤ g 7 ∧ n 8 = 0 ∧ (s.tile 0 0).retired = false := by decide +kernel

theorem wit_redadd : let s := withX lab [(1, 4), (2, 8), (3, 0x0000100009000000), (4, vaData), (5, vaRed)]
    let g : Page := { home := 0, ppn := 6, pte := 0x60005 }
    s.readyFor (.redadd 1 2) = true ∧ (s.rx 1).toNat % 8 ≠ 0 ∧ isGlob (s.rx 2).toNat = false ∧ isGlob (s.rx 3).toNat = true ∧ s.xlate 0 0 (s.rx 3).toNat = none ∧
    s.xlate 0 0 (s.rx 5).toNat = some g ∧ s.isRed 0 g (s.rx 5).toNat = true ∧ s.isRed 0 { home := 0, ppn := 5, pte := 0x50003 } (s.rx 4).toNat = false ∧
    pteSec g.pte = false ∧ s.physOk g (s.launch 0).dom = true ∧ (s.launch 0).inCounters (s.rx 5).toNat = false ∧ g.home = s.tilePkg 0 0 ∧
    ((s.launch 0).shadows.any fun h => h.home == g.home && h.vpn == (s.rx 5).toNat / 65536) = true := by decide +kernel

theorem wit_gfaa : let s := withX (withCounters lab) [(1, 4), (2, vaData), (3, vaText)]
    let d := withL s fun x => { x with desc := { x.desc with flags := 1 } }
    s.readyFor (.gfaa 1 2 3) = true ∧ (s.rx 1).toNat % 8 ≠ 0 ∧ (s.launch 0).inCounters (s.rx 2).toNat = false ∧ (s.launch 0).inCounters (s.rx 3).toNat = true ∧
    (s.launch 0).desc.det = false ∧ (d.launch 0).desc.det = true ∧ d.readyFor (.gfaa 1 2 3) = true ∧ s.xlate 0 (s.tilePkg 0 0) (s.rx 3).toNat = some { home := 0, ppn := 4, pte := 0x40001 } ∧
    (s.task s.cur).pend = [] := by decide +kernel

/-- GFAA where the counter page has no translation, is secure, or has its home on package 1, on a path and on none. -/
def farCounter (pte : Nat) (paths : List (Nat × BitVec 64)) : State :=
  let s := withL (withP lab fun x => { x with hbm := labTables ++ Memory.cells (0x30000 + 8 * 0x104) (natLe 8 pte), paths := paths }) fun x =>
    { x with desc := { x.desc with ctrVa := 0x0000100001040000, ctrCount := 2 } }
  (withX s [(3, 0x0000100001040000)]).modPkg 1 fun x => { x with regions := (run.pkg 0).regions }

theorem wit_gfaa_far :
    (farCounter 0 []).readyFor (.gfaa 1 2 3) = true ∧ ((farCounter 0 []).launch 0).inCounters 0x0000100001040000 = true ∧ (farCounter 0 []).xlate 0 0 0x0000100001040000 = none ∧
    (match (farCounter (0x100001 + 2 ^ 52) []).xlate 0 0 0x0000100001040000 with | some g => pteSec g.pte | none => false) = true ∧
    (let s := farCounter 0x100019 []
     match s.xlate 0 0 0x0000100001040000 with
     | some g => g.home == 1 && !pteSec g.pte && s.physOk g 0 && (s.route 0 1 0x0000100001040000).isNone
     | none => false) = true ∧
    ((farCounter 0x100019 [(4, pathWord)]).route 0 1 0x0000100001040000).isSome = true := by decide +kernel

theorem wit_quiet : quiet lab 0 4 ∧ quiet (withP lab fun x => { x with power := { x.power with dirtyOld := [4] } }) 0 4 :=
  ⟨.inr (by decide +kernel), .inl ⟨by decide +kernel, by decide +kernel⟩⟩

theorem wit_groups : let s := withX lab [(2, 1)]
    ([.gredAddd 1 0, .gredMind 1 0, .gredMaxd 1 0, .gredAndd 1 0, .gredOrd 1 0, .gredXord 1 0, .gredFadds 1 0, .gredFmins 1 0, .gredFmaxs 1 0] : List Instr).all (fun i => s.readyFor i && (gredOf i).isSome) = true ∧
    ([.gresAddd 1 0, .gresMind 1 0, .gresMaxd 1 0, .gresAndd 1 0, .gresOrd 1 0, .gresXord 1 0, .gresFadds 1 0, .gresFmins 1 0, .gresFmaxs 1 0] : List Instr).all (fun i => s.readyFor i && (gresOf i).isSome) = true ∧
    (s.rx 0).toNat < (s.launch 0).desc.ngroups ∧ 0 ∈ (s.launch 0).groups.getD (s.rx 0).toNat [] ∧ ¬(s.rx 2).toNat < (s.launch 0).desc.ngroups ∧
    (s.tile 0 0).gres = [] ∧ ((withT s fun x => { x with gres := [((0, 0), 9)] }).tile 0 0).gres = [] ++ (((s.rx 0).toNat, GOp.addd.code), 9) :: [] := by decide +kernel

theorem wit_bst : let s := withX lab [(1, 512), (2, 511)]
    let f := withL s fun x => { x with pends := List.replicate 64 { tile := 0, task := 0, seq := 0, eff := .bst 0 0 } }
    s.readyFor (.bst 1 2) = true ∧ s.readyFor (.bld 1 2) = true ∧ 512 ≤ (s.rx 1).toNat ∧ (s.rx 2).toNat < 512 ∧ s.bstCount 0 0 < 64 ∧ 64 ≤ f.bstCount 0 0 ∧ f.readyFor (.bst 2 1) = true ∧
    (s.launch 0).pkgs.headD (s.tilePkg 0 0) = s.tilePkg 0 0 := by decide +kernel

theorem wit_tags : let s := withX lab [(1, 5), (2, 2 ^ 63)]
    let t := withK s fun k => { k with bank := { k.bank with tags := [(4, 1), (5, 2)] } }
    let f := withK s fun k => { k with bank := { k.bank with tags := List.replicate 1024 (4, 1) } }
    s.readyFor (.tlook 3 1) = true ∧ s.readyFor (.tins 1 2) = true ∧ s.readyFor (.tdel 1) = true ∧ s.readyFor .tclr = true ∧ s.bank.tags = [] ∧ (s.rx 2).getLsbD 63 = true ∧
    (s.rx 1).getLsbD 63 = false ∧ t.readyFor (.tlook 3 1) = true ∧ t.bank.tags = [(4, 1)] ++ (t.rx 1, 2) :: [] ∧ 1024 / f.curLaunch.desc.tasks ≤ f.bank.tags.length ∧
    f.readyFor (.tins 1 1) = true := by decide +kernel

/-- REP before VFADD: the run it starts; before ECALL, which may not be repeated; with a REPSTATE that does not fit. -/
theorem wit_rep : let prog := fun (w1 w2 : Nat) => withP run fun x => { x with hbm := placedTables ++ Memory.cells 0x40000 (natLe 4 w1 ++ natLe 4 w2) }
    let s := prog 0x0E00500B 0x0000005B
    s.canIssue s.cur = true ∧ legal s.inHandler s.accs (.rep 3 4 0) = true ∧ (match repCheck s 3 4 0 with | .run 4 0 (.vfadd .f32 0 0 0 0) => true | _ => false) = true ∧
    s.cmpMatch (some (0, !(s.task s.cur).inSeq)) = none ∧ (repFields (.vfadd .f32 0 0 0 0)).isSome = true ∧
    okIs (fetchAt s (s.bank.pc + 4)) [0x5B, 0, 0, 0] = true ∧ okIs (decode (wordOfBytes [0x5B, 0, 0, 0])) (.vfadd .f32 0 0 0 0) = true ∧
    okIs (decode (wordOfBytes [0x73, 0, 0, 0])) .ecall = true ∧ repFields .ecall = none ∧
    (let t := withK s fun k => { k with bank := { k.bank with repRemain := 65 } }
     t.bank.repRemain.toNat ≠ 0 ∧ 64 < t.bank.repRemain.toNat ∧ t.canIssue t.cur = true) := by decide +kernel


/-- REP before EBREAK; with a comparator that names repetition 0; with a step past the registers; and a repeated form that is ready. -/
theorem wit_rep_more : let prog := fun (w1 w2 : Nat) => withP run fun x => { x with hbm := placedTables ++ Memory.cells 0x40000 (natLe 4 w1 ++ natLe 4 w2) }
    let s := (prog 0x0E00500B 0x0000005B).setCmp 0 0 { hbrk := 0x401, pc := #v[placedDesc.entry, 0, 0, 0], sval := #v[0, 0, 0, 0] }
    s.cmpMatch (some (0, true)) = some 0 ∧ s.cmpMatch (some (1, false)) = none ∧
    (let t := prog 0x0E00500B (match encode (.vadd .i32 0 0 0 0) with | some c => c.toNat | none => 0)
     (match repCheck t 3 4 0 with | .run 4 0 j => (t.withRep 4 0).readyFor j && (intForm t j).isSome && (repFields j).isSome | _ => false) = true) ∧
    okIs (decode (wordOfBytes [0x73, 0, 0x10, 0])) .ebreak = true := by decide +kernel

theorem wit_rep_fields : (match repFields (.vadd .i32 30 0 0 0) with | some (_, a, _, _) => a == .vec 30 | none => false) = true ∧ stepFits 16 1 (.vec 30) ∧ ¬stepFits 16 2 (.vec 30) ∧
    stepFits 16 15 (.acc 0) ∧ ¬stepFits 16 16 (.acc 0) := by
  unfold stepFits
  decide +kernel

/-! ### Vectors -/

/-- With some v registers set. -/
def withV (s : State) (l : List (Reg × Vec)) : State := l.foldl (fun s e => s.modBank fun b => b.wv e.1 e.2) s

/-- Every 32-bit lane holds this code. -/
def every (c : Nat) : Vec := vbuild 32 64 fun _ => c

/-- The tests of R213, the bound of own TM, and a test of every active byte lane's address, as a Bool. -/
def formOk (s : State) (f : VForm) (q : Nat → Bool) : Bool :=
  (if f.contiguous then (f.addr 0).toNat % 4 == 0 else (List.range 256).all fun j => !f.act j || (f.addr (j / 4 * 4)).toNat % 4 == 0) &&
    (List.range 256).all fun j => !f.act j || (decide ((f.addr j).toNat < (s.launch s.curL).desc.tmSize) && q (f.addr j).toNat)

theorem form_of_ok {s : State} {o : Option VForm} {q : Nat → Bool} (w : Bool) (hm : (s.task s.cur).mreq = []) (h : o.any (formOk s · q) = true) :
    ∃ f, o = some f ∧ f.aligned ∧ f.inOwn s ∧ f.free (s.task s.cur) w ∧ ∀ b, b < 256 → f.act b = true → q (f.addr b).toNat = true := by
  cases o with
  | none => simp at h
  | some f =>
    simp only [Option.any_some, formOk, Bool.and_eq_true, List.all_eq_true, List.mem_range, Bool.or_eq_true, Bool.not_eq_true', decide_eq_true_eq] at h
    refine ⟨f, rfl, ?_, ?_, ?_, ?_⟩
    · unfold VForm.aligned
      split
      · rename_i hc; simpa [hc] using h.1
      · rename_i hc
        intro j hj ha
        have := h.1
        simp only [hc, Bool.false_eq_true, if_false, List.all_eq_true, List.mem_range, Bool.or_eq_true, Bool.not_eq_true', beq_iff_eq] at this
        exact (this j hj).resolve_left (by simp [ha])
    · intro j hj ha
      exact ((h.2 j hj).resolve_left (by simp [ha])).1
    · intro j hj ha
      simp [noStoreRange, noFetchRange, hm]
    · intro j hj ha
      exact ((h.2 j hj).resolve_left (by simp [ha])).2

/-- Offsets 0x1000 and 4, byte strides of 4, indices 4k. -/
def vlab : State := withV (withX run [(2, 0x1000), (4, 4), (5, 2)]) [(3, vbuild 32 64 fun k => 4 * k)]

theorem wit_vector_loads : ∀ j ∈ ([.vld 1 2 0, .vldpi 1 2 0, .vlds 1 2 4 0, .vgath 1 2 3 0, .pldr 1 2] : List Instr), vlab.readyFor j = true ∧
    ∃ f, vloadOf vlab j = some f ∧ f.aligned ∧ f.inOwn vlab ∧ f.free (vlab.task vlab.cur) false ∧
      ∀ b, b < 256 → f.act b = true → (!((vlab.tile 0 0).owner (f.addr b).toNat).isEngine) = true := by
  have hm : (vlab.task vlab.cur).mreq = [] := by decide +kernel
  have h : ([.vld 1 2 0, .vldpi 1 2 0, .vlds 1 2 4 0, .vgath 1 2 3 0, .pldr 1 2] : List Instr).all (fun j => vlab.readyFor j &&
    (vloadOf vlab j).any (formOk vlab · fun o => !((vlab.tile 0 0).owner o).isEngine)) = true := by decide +kernel
  intro j hj
  have := List.all_eq_true.1 h j hj
  simp only [Bool.and_eq_true] at this
  exact ⟨this.1, form_of_ok false hm this.2⟩

theorem wit_vector_stores : ∀ j ∈ ([.vst 1 2 0, .vstpi 1 2 0, .vsts 1 2 4 0, .vscat 1 2 3 0, .pstr 1 2] : List Instr), vlab.readyFor j = true ∧
    ∃ f, vstoreOf vlab j = some f ∧ f.aligned ∧ f.inOwn vlab ∧ f.free (vlab.task vlab.cur) true ∧
      ∀ b, b < 256 → f.act b = true → decide ((vlab.tile 0 0).owner (f.addr b).toNat = .own 0) = true := by
  have hm : (vlab.task vlab.cur).mreq = [] := by decide +kernel
  have h : ([.vst 1 2 0, .vstpi 1 2 0, .vsts 1 2 4 0, .vscat 1 2 3 0, .pstr 1 2] : List Instr).all (fun j => vlab.readyFor j &&
    (vstoreOf vlab j).any (formOk vlab · fun o => decide ((vlab.tile 0 0).owner o = .own 0))) = true := by decide +kernel
  intro j hj
  have := List.all_eq_true.1 h j hj
  simp only [Bool.and_eq_true] at this
  exact ⟨this.1, form_of_ok true hm this.2⟩

/-- A misaligned piece, and a piece whose block 4 is read-only for tasks (a store) or an engine's (a load): its first byte is bad. -/
theorem wit_vector_traps : let s := withT vlab fun x => { x with ownCur := x.ownCur.set 2 .ro }
    let e := withT vlab fun x => { x with ownCur := x.ownCur.set 2 (.engine 0) }
    (∀ j ∈ ([.vld 1 5 0, .pldr 1 5] : List Instr), s.readyFor j = true ∧ (vloadOf s j).any (fun f => f.contiguous && (f.addr 0).toNat % 4 != 0) = true) ∧
    (∀ j ∈ ([.vst 1 5 0, .vstpi 1 5 0] : List Instr), s.readyFor j = true ∧ (vstoreOf s j).any (fun f => f.contiguous && (f.addr 0).toNat % 4 != 0) = true) ∧
    s.readyFor (.vscat 1 2 3 0) = true ∧ (vstoreOf s (.vscat 1 2 3 0)).any (fun f => formOk s f (fun _ => true) && f.act 0 && decide ((s.tile 0 0).owner (f.addr 0).toNat ≠ .own 0)) = true ∧
    e.readyFor (.vgath 1 2 3 0) = true ∧ (vloadOf e (.vgath 1 2 3 0)).any (fun f => formOk e f (fun _ => true) && f.act 0 && ((e.tile 0 0).owner (f.addr 0).toNat).isEngine) = true := by
  decide +kernel

/-- Vector accesses outside own TM: a page, and the tile's own memory as a peer's. -/
theorem wit_vector_far : let s := withX lab [(2, vaData), (5, 0x10000001000)]
    let tag := fun (f : VForm) b => (regionOf (s.launch 0).desc.tmSize (s.launch 0).desc.ntile (f.addr b).toNat).tag
    s.readyFor (.vld 1 2 0) = true ∧ (s.task s.cur).pend = [] ∧ s.readyFor (.vst 1 5 0) = true ∧ (s.tile 0 0).retired = false ∧
    (vloadOf s (.vld 1 2 0)).any (fun f => (f.addr 0).toNat % 4 == 0 && f.act 0 && f.reg != { file := .p, num := 0 } && (List.range 256).all fun b => f.act b &&
      decide ((s.launch 0).desc.tmSize ≤ (f.addr b).toNat) && !s.lostRead 0 0 (f.addr b).toNat && tag f b == tag f 0 &&
      (s.xlate 0 0 (f.addr b).toNat).any fun g => !pteSec g.pte && s.physOk g 0) = true ∧
    (vstoreOf s (.vst 1 5 0)).any (fun f => (f.addr 0).toNat % 4 == 0 && (List.range 256).all fun b =>
      match regionOf (s.launch 0).desc.tmSize (s.launch 0).desc.ntile (f.addr b).toNat with | .peer x o => x == 0 && o == 0x1000 + b | _ => false) = true := by decide +kernel

/-- Format register 1 holds E3M4 with BIAS 3 and SPEC 01. -/
def flab : State := withV (run.modBank fun b => { b with fmt := b.fmt.set 1 0x40DE0 }) [(1, every 0x3F800000), (2, every 0x40000000)]

/-- Flags: a signalling NaN in every lane, with NV enabled. -/
def nvLab : State := withV (run.modBank fun b => { b with trapen := 0x1F }) [(1, every 0x7F800001)]

def fpForms : List Instr :=
  [.vfadd .f32 4 1 2 0, .vfsub .f32 4 1 2 0, .vfmul .bf16 4 1 2 0, .vfma .f32 4 1 2 0, .vfnms .f16 4 1 2 0, .vfmin .f32 4 1 2 0, .vfmax .f32 4 1 2 0, .vfabs .f32 4 1 0,
    .vfneg .f32 4 1 0, .vfcpys .f32 4 1 2 0, .vfcvt .bf16 .f32 4 1 0, .vfcvt .f32 .i64 4 1 0, .vcvtn 4 1 1 0, .vcvtw 4 1 1 0, .vscale 4 1 2 0, .vaddi .f32 4 0x3F80,
    .vmuli .bf16 4 0x3F80, .vmaxi .f16 4 0x3C00]

theorem wit_fp_forms : fpForms.all (fun i => flab.readyFor i && (fpForm flab i).any fun f => flab.bank.trapen &&& f.flags flab == 0) = true ∧
    ([.vfadd .f32 4 1 1 0, .vfma .f32 4 1 1 0, .vfcvt .bf16 .f32 4 1 0, .vscale 4 1 2 0, .vfmin .f32 4 1 1 0] : List Instr).all (fun i => nvLab.readyFor i &&
      (fpForm nvLab i).any fun f => nvLab.bank.trapen &&& f.flags nvLab != 0) = true := by decide +kernel

theorem wit_no_narrow_format : let s := run.modBank fun b => { b with fmt := b.fmt.set 2 0 }
    narrowOk (s.fmtReg 2) = false ∧ ([.vcvtn 4 1 2 0, .vcvtw 4 1 2 0, .vbmax 4 1 2 0] : List Instr).all s.readyFor = true := by decide +kernel

theorem wit_integer_forms : ([.vadd .i8 4 1 2 0, .vsub .i16 4 1 2 0, .vmul .i32 4 1 2 0, .vmulh .i64 4 1 2 0, .vand .i8 4 1 2 0, .vor .i8 4 1 2 0, .vxor .i8 4 1 2 0,
    .vsll .i16 4 1 2 0, .vsrl .i16 4 1 2 0, .vsra .i16 4 1 2 0, .vmin .i8 4 1 2 0, .vmax .i8 4 1 2 0, .vminu .i8 4 1 2 0, .vmaxu .i8 4 1 2 0, .vsel 4 1 2 0,
    .vperm .i8 4 1 2 0, .vslup .i8 4 1 2 0, .vsldn .i8 4 1 2 0, .vzip .i8 4 1 2 0, .vunzip .i8 4 1 2 0, .viota .i8 4 0, .vdupx .i64 4 2 0, .visumr .i32 4 1 0,
    .vli .f32 4 0x3F80, .vli .bf16 4 1] : List Instr).all (fun i => flab.readyFor i && (intForm flab i).isSome) = true ∧
    run.readyFor (.vli .fp8 4 0) = true ∧ ¬(narrowOk (run.fmtReg 0) = true ∧ fmtClass (run.fmtReg 0) = .c8) := by decide +kernel

theorem wit_predicate_forms : ([.vfceq .f32 1 1 2 0, .vfclt .f32 1 1 2 0, .vfcle .f32 0 1 2 0, .viceq .i8 1 1 2 0, .viclt .i8 1 1 2 0, .vicltu .i8 1 1 2 0, .pwhilelt .i8 1 1 2,
    .plogicAnd 1 2 3, .plogicOr 1 2 3, .plogicXor 1 2 3, .plogicAndn 1 2 3, .pfirst .i8 1 2] : List Instr).all (fun i => flab.readyFor i &&
      (predForm flab i).any fun f => flab.bank.trapen &&& f.flags == 0) = true ∧
    ([.vfceq .f32 1 1 1 0, .vfclt .f32 1 1 1 0, .vfcle .f32 1 1 1 0] : List Instr).all (fun i => nvLab.readyFor i && (predForm nvLab i).any fun f => nvLab.bank.trapen &&& f.flags != 0) = true ∧
    ([.vmvxs .i8 1 2 3, .pcnt .i8 1 2] : List Instr).all (fun i => flab.readyFor i && (scalarForm flab i).isSome) = true := by decide +kernel

/-- A tree with no flag enabled; one whose signalling NaNs trap; VBMAX with a valid format, with and without an enabled flag. -/
theorem wit_lane_reductions : ([.vfsumr .f32 4 1 0, .vfmaxr .bf16 4 1 0] : List Instr).all (fun i => flab.readyFor i && (fpReduce flab i).isSome) = true ∧ flab.bank.trapen = 0 ∧
    ([.vfsumr .f32 4 1 0, .vfmaxr .f32 4 1 0] : List Instr).all (fun i => nvLab.readyFor i && (fpReduce nvLab i).isSome &&
      match exec i nvLab with | .next u => (match (u.task nvLab.cur).status with | .frozen r => r.cause == 0x0A && r.tval == 0x10 | _ => false) | _ => false) = true ∧
    flab.readyFor (.vbmax 4 1 1 0) = true ∧ narrowOk (flab.fmtReg 1) = true ∧
    (let s := nvLab.modBank fun b => { b with fmt := b.fmt.set 1 0x40DE0 }
     s.readyFor (.vbmax 4 1 1 0) = true ∧ narrowOk (s.fmtReg 1) = true ∧ (fd fp32 (code 32 (s.bank.rv 1) 0)).isSig = true ∧ (s.bank.rg 0).getLsbD 0 = true ∧ s.bank.trapen &&& FFlags.nv ≠ 0) := by
  decide +kernel

/-- Requests of the SFU: 1/1, and 1/0 with DZ enabled. -/
def sfuOne (v : Vec) (en : FFlags) : SfuReq := { task := 0, fn := 0x10, es := .f32, vd := 4, a := v, b := v, old := 0, act := 1, rmode := 0, trapen := en, pc := placedDesc.entry, rep := none }

theorem wit_sfu : ([.vfrcp .f32 4 1 0, .vfrsq .f32 4 1 0, .vfsqrt .f32 4 1 0, .vfdiv .f32 4 1 2 0, .vfexp2 .f32 4 1 0, .vflog2 .f32 4 1 0, .vftanh .f32 4 1 0] : List Instr).all (fun i =>
      flab.readyFor i && (sfuOf i).isSome && (withT flab fun x => { x with sfu := List.replicate 16 { sfuOne 0 0 with task := 1 } }).readyFor i) = true ∧ (flab.tile 0 0).sfu.length < 16 ∧
    (sfuOne (every 0x3F800000) 0x1F).trapen &&& (sfuActive (sfuOne (every 0x3F800000) 0x1F)).foldl (fun f n => f ||| (sfuAt (sfuOne (every 0x3F800000) 0x1F) n).2) 0 = 0 ∧
    (sfuOne 0 0x1F).trapen &&& (sfuActive (sfuOne 0 0x1F)).foldl (fun f n => f ||| (sfuAt (sfuOne 0 0x1F) n).2) 0 ≠ 0 ∧
    ((withT run fun x => { x with sfu := [sfuOne 0 0x1F] }).tile 0 0).sfu = sfuOne 0 0x1F :: [] := by decide +kernel

/-! ### The matrix array -/

/-- Two dense operands of 64-byte rows at 0 and 0x1000 (E3M4 in FMT0), one sparse, and two bad ones: a reserved bit and an empty format register. -/
def mlab : State :=
  withX (run.modBank fun b => { b with fmt := (b.fmt.set 0 0x40DE0).set 3 0 })
    [(2, 64 * 2 ^ 32), (3, 0x8000000), (4, 0x1000 + 64 * 2 ^ 32), (5, 0), (6, 64 * 2 ^ 32), (7, 2 ^ 25), (8, 64 * 2 ^ 32), (9, 2 ^ 28), (10, 64 * 2 ^ 32), (11, 3 * 2 ^ 16), (12, 64 * 2 ^ 32), (13, 3 * 2 ^ 16 + 2 ^ 25), (14, 64), (15, 63)]

/-- Its task's queue is full. -/
def mfull : State := withK mlab fun k => { k with mreq := List.replicate 8 { acc := 0, op := .zero, fetch := [], store := none, started := false, age := 0 } }

theorem wit_matrix_waits : ([.mzero 0, .mma 0 2 4, .mmas 0 6 4, .mmav 0 16 4, .mst 0 2, .mwr 0 2 4] : List Instr).all mlab.readyFor = true ∧ mfull.canIssue mfull.cur = true ∧
    8 ≤ (mfull.task mfull.cur).mreq.length ∧ (mlab.task mlab.cur).mreq = [] ∧ rowOf mlab (mlab.rx 14) = none ∧ rowOf mlab (mlab.rx 15) = some 63 ∧
    mlab.readyFor (.mwr 0 2 14) = true ∧ mlab.readyFor (.mwr 0 2 15) = true := by decide +kernel

theorem wit_matrix_checks : let A := fun r => mlab.dpair r
    (descOk .dense (A 8).w0 (A 8).w1 (A 8).fmt = false ∧ mlab.readyFor (.mma 0 8 4) = true ∧ mlab.readyFor (.mma 0 4 8) = true) ∧
    (descOk .sparse (A 2).w0 (A 2).w1 (A 2).fmt = false ∧ mlab.readyFor (.mmas 0 2 4) = true) ∧
    (descOk .dense (A 10).w0 (A 10).w1 (A 10).fmt = true ∧ multOk (A 10).w1 (A 10).fmt = false ∧ mlab.readyFor (.mma 0 10 4) = true ∧ mlab.readyFor (.mma 0 4 10) = true) ∧
    (descOk .sparse (A 12).w0 (A 12).w1 (A 12).fmt = true ∧ multOk (A 12).w1 (A 12).fmt = false ∧ mlab.readyFor (.mmas 0 12 4) = true) := by decide +kernel

/-- An operand in FP32, the other narrow or not; an operand of 16-bit elements with SCALE 1; operands that end past the task's memory. -/
theorem wit_matrix_classes :
    let f := fun (c : BitVec 32) (r : Reg) => (mlab.modBank fun b => { b with fmt := (b.fmt.set 1 c) } |>.wx 11 (2 ^ 16)).dpair r
    let bad := fun w f => !fmtValid f || (fmtClass f == .c16 && dScale w == 1)
    (fmtClass (f 1 10).fmt = .c32 ∧ bad (f 1 10).w1 (f 1 10).fmt = false ∧ fmtClass (f 1 4).fmt = .c8 ∧ descOk .dense (f 1 10).w0 (f 1 10).w1 (f 1 10).fmt = true) ∧
    (fmtClass (f 2 10).fmt = .c16 ∧ bad ((f 2 10).w1 ||| 2 ^ 19) (f 2 10).fmt = true ∧ descOk .dense (f 2 10).w0 ((f 2 10).w1 ||| 2 ^ 19) (f 2 10).fmt = true) ∧
    (let s := withX mlab [(2, 0x1DFFC0 + 64 * 2 ^ 32), (4, 0x1E0000 + 64 * 2 ^ 32)]
     let ra := fun r => operandRanges (fmtClass (s.dpair r).fmt) (s.dpair r).w0 (s.dpair r).w1
     s.readyFor (.mma 0 2 4) = true ∧ s.curLaunch.desc.tmSize ≤ (footprint (ra 2 ++ ra 4)).hi ∧ ¬s.curLaunch.desc.tmSize ≤ (footprint (ra 2 ++ ra 4)).lo ∧
       s.curLaunch.desc.tmSize ≤ (footprint (ra 4)).lo) := by decide +kernel

theorem wit_matrix_queued : let A := fun r => mlab.dpair r
    let ra := fun r => operandRanges (fmtClass (A r).fmt) (A r).w0 (A r).w1
    (∀ r ∈ [(2, DRole.dense), (6, .sparse), (4, .dense)], descOk r.2 (A r.1).w0 (A r.1).w1 (A r.1).fmt = true ∧ multOk (A r.1).w1 (A r.1).fmt = true ∧
      fmtClass (A r.1).fmt = fmtClass (A 4).fmt ∧ mlab.readCheck (ra r.1 ++ ra 4) = none) ∧
    mlab.readCheck (ra 4) = none ∧ descOk .dest (A 2).w0 (A 2).w1 (A 2).fmt = true ∧ fmtValid (A 2).fmt = true ∧ dScale (A 2).w1 ≠ 1 ∧
    lowestOutside mlab.curLaunch.desc.tmSize [footprint (mstRanges (A 2).fmt (A 2).w0 (A 2).w1)] = none ∧
    mlab.curTile.lowestBad (fun _ o => o == .own mlab.curI) (mstRanges (A 2).fmt (A 2).w0 (A 2).w1) = none := by decide +kernel

theorem wit_mwait_mrd : mlab.readyFor (.mwait 0) = true ∧ mlab.readyFor (.mrd 1 0 15) = true ∧ mlab.readyFor (.mrd 1 0 14) = true ∧ mfull.readyFor (.mwait 0) = true ∧
    mfull.canIssue mfull.cur = true ∧ (∀ q ∈ (mlab.task mlab.cur).mreq, q.acc ≠ 0) ∧ ¬∀ q ∈ (mfull.task mfull.cur).mreq, q.acc ≠ 0 := by decide +kernel

/-- A queue with one request of each kind, waiting to start or started. -/
def mone (op : MOp) (started : Bool) : MReq := { acc := 0, op := op, fetch := [], store := none, started := started, age := 0 }

theorem wit_matrix_array (op : MOp) : ((withK run fun k => { k with mreq := [mone op true] }).task (.thread 0 0 0)).mreq = mone op true :: [] ∧
    ((withK run fun k => { k with mreq := [mone op false] }).task (.thread 0 0 0)).mreq = mone op false :: [] ∧
    ((withK run fun k => { k with mreq := [mone op false] }).task (.thread 0 0 1)).mreq = [] ∧ ((withK run fun k => { k with mreq := [mone op false] }).task (.thread 0 0 3)).mreq = [] :=
  ⟨rfl, rfl, rfl, rfl⟩

theorem wit_matrix_row : ∀ row v, MOp.mwr 63 1 = .mwr row v → row < 64 := by
  intro row v e
  cases e
  decide

/-! ### The streams -/

/-- QSTEP is one ahead of the superstep; a dimension past 255; a good, a bad and a misaligned QRTLD. -/
theorem wit_streams : let s := withX run [(1, 256), (2, 0x10005), (3, 0), (4, 2), (5, 255)]
    let k := run.modBank fun b => { b with qstep := 1 }
    s.cur = .thread 0 0 0 ∧ ([.qrv 1 2, .qrvf 1 2, .qrx 1 2 3, .qrnext, .qrskip 1, .pipv 1] : List Instr).all (fun i => usesStream i && k.readyFor i && s.readyFor i) = true ∧
    k.bank.qstep - BitVec.ofNat 64 (k.lpkg 0 (k.tilePkg 0 0)).sstep ≠ 0 ∧ s.bank.qstep - BitVec.ofNat 64 (s.lpkg 0 (s.tilePkg 0 0)).sstep = 0 ∧
    255 < s.bank.qdim.toNat + (s.rx 1).toNat ∧ s.bank.qdim.toNat + (s.rx 5).toNat ≤ 255 ∧ 255 < (s.rx 1).toNat ∧ s.readyFor (.qrtld 3 2) = true ∧
    (s.rx 2).toNat < 2 ^ 32 ∧ (s.rx 2).toNat / 2 ^ 16 % 2 ^ 16 ≠ 0 ∧ (s.rx 2).toNat % 2 ^ 16 + 1 ≤ 256 ∧ (s.rx 3).toNat % 4 = 0 ∧ (s.rx 4).toNat % 4 ≠ 0 ∧ s.readyFor (.qrtld 4 2) = true ∧
    (s.rx 3).toNat / 2 ^ 16 % 2 ^ 16 = 0 ∧ s.readyFor (.qrtld 4 3) = true ∧ s.tmCheck (fun _ o => !o.isEngine) [{ lo := 0, hi := 127 }] = none ∧ (s.task s.cur).mreq = [] := by
  decide +kernel

/-! ### Examples of the manual -/

/-- A block maximum of 100 in E3M4 with BIAS 3 and SPEC 01 takes byte 0x81 and 100 is stored as 25, code 0x79; 31 saturates to 0x7E with OF
and NX (R113's example). -/
theorem test_block_scale : scalesel [.num false 100 0] (fmtOf 0x40DE0) = 0x81 ∧ fencode (fmtOf 0x40DE0) .rne 0 (.num false 25 0) = (0x79, 0) ∧
    fencode (fmtOf 0x40DE0) .rne 0 (.num false 31 0) = (0x7E, FFlags.nx ||| FFlags.of) := by decide +kernel

/-- The canonical tree of 1, 2^24, 1, −2^24, 3 gives 4 with NX; the exact sum gives 5 (R118's example). -/
theorem test_tree_sum : (let s := withV run [(1, vbuild 32 64 fun k => [0x3F800000, 0x4B800000, 0x3F800000, 0xCB800000, 0x40400000].getD k 0)]
    let t := s.modBank fun b => b.wp 1 0xFFFFF
    match exec (.vfsumr .f32 4 1 1) t with | .next u => u.bank.rv 4 == 0x40800000 && u.bank.tflags == FFlags.nx | _ => false) = true ∧
    fsumExact [.num false 1 0, .num false 1 24, .num false 1 0, .num true 1 24, .num false 3 0] = (0x40A00000, 0) := by decide +kernel

/-! ### Bring-up, power, drain -/

/-- The event's next state passes a test. -/
def goes (i : Instr) (s : State) (f : State → Bool) : Bool := match exec i s with
  | .next t => f t
  | _ => false

/-- A package at a bring-up step. -/
def bootAt (n w : Nat) : State := State.reset.modPkg 0 fun x => { x with boot := { x.boot with step := n, woken := w } }

theorem wit_bring_up : (∀ e ∈ [(1, 0), (2, 0), (2, 126), (2, 127), (3, 128), (4, 128), (5, 128)], ((bootAt e.1 e.2).pkg 0).drain = .none ∧ ((bootAt e.1 e.2).pkg 0).boot.halted = false ∧
      ((bootAt e.1 e.2).pkg 0).boot.step = e.1 ∧ ((bootAt e.1 e.2).pkg 0).image = none) ∧
    (Instr.opticalTraining 0 [(27, 63)] [(2047, 1)] [0, 191] []).wf = true ∧ (([(2047, 1#64)] : List (Nat × BitVec 64)).map (·.1)).Nodup := by decide +kernel

/-- Images that the ROM accepts, and refuses by key hash, signature and version. -/
theorem wit_images : let x := ((bootAt 1 0).modPkg 0 fun x => { x with fuses := { x.fuses with keyHash := 7, minVersion := 3 } }).pkg 0
    let good := fun (img : RomImage) => decide (img.keyHash = x.fuses.keyHash ∧ img.verified = true ∧ x.fuses.minVersion.toNat ≤ img.version.toNat)
    good ⟨7, true, 3, 0, 0⟩ = true ∧ good ⟨8, true, 3, 0, 0⟩ = false ∧ good ⟨7, false, 3, 0, 0⟩ = false ∧ good ⟨7, true, 2, 0, 0⟩ = false := by decide +kernel

/-- A failed cluster wake fuses its 16 tiles off; 1,983 usable tiles read as DEGRADED; every stack goes to tracker mode. -/
theorem test_bring_up : goes (.clusterWake 0 false) (bootAt 2 17) (fun t => ((t.pkg 0).usableAll == 2032) && !(t.pkg 0).usable 1 2 0 && (t.pkg 0).usable 2 1 0) = true ∧
    goes (.opticalTraining 0 [(27, 63)] [] [0] []) ((bootAt 5 128).modPkg 0 fun x => { x with harvest := x.harvest.set 0 (BitVec.ofNat 256 (2 ^ 191 - 1)) })
      (fun t => (t.pkg 0).boot.degraded && t.windowA 0 0x13C0 true == 1 && decide ((((t.pkg 0).port 27).lane 63).mode = .failed) && t.star.members == [0]) = true := by decide +kernel

/-- With the power block changed. -/
def withPower (f : Power → Power) : State := withP run fun x => { x with power := f x.power }

theorem wit_power : (run.pkg 0).drain = .none ∧ ((withP run fun x => { x with drain := .asserted }).pkg 0).drain ≠ .none ∧
    (run.pkg 0).power.pending = false ∧ (run.pkg 0).power.walk = none ∧
    ((withPower fun w => { w with pending := true, target := 7 }).pkg 0).power.target = 7 ∧ (∃ y z, Tab.find run.launches 0 = some y ∧ Tab.find y.lp 0 = some z) ∧
    (∀ n ∈ [0, 126, 127], ((withPower fun w => { w with walk := some n }).pkg 0).power.pending = false ∧ ((withPower fun w => { w with walk := some n }).pkg 0).power.walk = some n) := by
  and_intros
  all_goals first | decide +kernel | exact ⟨_, _, rfl, rfl⟩

/-- A write of PWRSTEP 7 demands level 7; the walk's start asks every launch to park; its end asserts PSTEPACK with vector 32 (R374, R376). -/
theorem test_power : goes (.pwrstep 0 7) run (fun t => (t.pkg 0).power.target == 7 && (t.pkg 0).power.pending &&
      goes (.walkStart 0) t fun u => (u.pkg 0).parksAll) = true ∧
    goes (.walkStep 0) (withPower fun w => { w with walk := some 127, target := 3 }) (fun t => (t.pkg 0).power.ack && (t.pkg 0).msix == [32] && (t.pkg 0).power.evt == 4 &&
      (t.pkg 0).power.levels.getD 127 0 == 3 && (t.pkg 0).power.levels.getD 126 0 == 0) = true := by decide +kernel

theorem wit_persistent_base : (run.pkg 0).power.dirtyNew = none ∧ (let s := withPower fun w => { w with dirtyOld := [4], dirtyNew := some [4, 5] }
      (s.pkg 0).power.dirtyNew = some [4, 5] ∧ [4, 5].Nodup) ∧ (run.pkg 0).drain ≠ .off ∧ ((withP run fun x => { x with drain := .off }).pkg 0).drain = .off := by decide +kernel

/-- PBCMD 2 joins the two sets, PBCMD 3 keeps the new one (R381). -/
theorem test_persistent_base : let s := withPower fun w => { w with dirtyOld := [4], dirtyNew := some [4, 5] }
    goes (.pbcmdCommit 0) s (fun t => (t.pkg 0).power.dirtyOld == [4, 5] && (t.pkg 0).power.dirtyNew == none) = true ∧
    goes (.i3cPrivateRead 0 0x28) s (fun t => (t.pkg 0).hostData == natLe 8 0x20000) = true := by decide +kernel

/-- A package with a dirty page, and one with an image and a domain held in restore. -/
def imaged (valid : Bool) (d : Drain) : State :=
  let i : DrainImage := { version := 1, pkg := 0, visit := 0, time := 0, sizes := [], records := [], trailer := 0, ckpts := [], streams := [], valid := valid, pages := [], doms := [], launches := [], tiles := [], tasks := [], tables := [], regions := [], pools := #v[Pool.first 0, Pool.first 1, Pool.first 2, Pool.first 3] }
  withP run fun x => { (x.setDom 0 { x.dom 0 with restore := true }) with drain := d, image := some i }

theorem wit_drain : (run.pkg 0).drain = .none ∧ (∀ d ∈ [Drain.asserted, .draining, .off], ((imaged true d).pkg 0).drain = d) ∧ ((imaged true .none).pkg 0).image ≠ none ∧
    (((imaged true .none).pkg 0).dom 0).restore = true ∧ (imaged true .none).launches.length = 1 ∧ ((run.pkg 0).dom 0).restore = false ∧ (run.pkg 0).image = none := by decide +kernel

/-- The drain's end leaves no launch of the package; power's return keeps a complete image only (R378, R379). -/
theorem test_drain : goes (.drainEnd 0) (imaged false .draining) (fun t => t.launches == [] && (match (t.pkg 0).image with | some i => i.valid | none => false) && decide ((t.pkg 0).drain = .off)) = true ∧
    goes (.powerReturn 0) (imaged false .off) (fun t => decide ((t.pkg 0).image = none)) = true := by decide +kernel

/-! ### The fabric -/

/-- Port 27's lane 63 and registers changed. -/
def ported (y : Port → Port) (v : Lane) : State :=
  withP run fun x => { x with ports := [(27, { y Port.zero with lanes := [(63, v)] })] }

theorem wit_lanes : (∀ m ∈ [LaneMode.active, .locking 1, .locking 2, .locking 3, .waiting 1, .failed], let s := ported id { Lane.zero with mode := m }
      (((s.pkg 0).port 27).lane 63).mode = m ∧ ((s.pkg 0).port 27).lost = false) ∧
    (let s := ported id { Lane.zero with wins := [85899] }
     ((s.pkg 0).port 27).thr.toNat ≤ (((s.pkg 0).port 27).lane 63).wins.foldl (· + ·) 0 ∧ ((s.pkg 0).port 27).minlanes.toNat < ((s.pkg 0).port 27).actives ∧
       ((s.pkg 0).port 27).retraining < 8) ∧
    (let s := ported (fun y => { y with minlanes := 63 }) { Lane.zero with wins := [85898], now := 1 }
     let t := ported (fun y => { y with minlanes := 63 }) { Lane.zero with mode := .failed }
     (85898 < ((s.pkg 0).port 27).thr.toNat) ∧ ((t.pkg 0).port 27).actives ≤ ((t.pkg 0).port 27).minlanes.toNat) := by decide +kernel

/-- A lane at THR is withdrawn, counted, and fails after its third attempt (R332–R334). -/
theorem test_lanes : goes (.laneWithdrawal 0 27 63) (ported id { Lane.zero with wins := [85899] }) (fun t =>
      decide ((((t.pkg 0).port 27).lane 63).mode = .locking 1) && ((t.pkg 0).port 27).count == 1 && ((t.pkg 0).port 27).last == 63) = true ∧
    goes (.lockAttemptTimeout 0 27 63) (ported id { Lane.zero with mode := .locking 3 }) (fun t => decide ((((t.pkg 0).port 27).lane 63).mode = .failed)) = true := by decide +kernel

/-- The image of a drained launch, whose tile was on no slot. -/
def drained : DrainImage :=
  { version := 1, pkg := 0, visit := 0, time := 0, sizes := [], records := [], trailer := 0, ckpts := [], streams := [], valid := true, pages := [(5, [])], doms := [],
    launches := run.launches, tiles := [((0, 0), { Tile.zero with retired := true })], tasks := [], tables := [], regions := [],
    pools := #v[Pool.first 0, Pool.first 1, Pool.first 2, Pool.first 3] }

/-- A package with that image, whose launch is dark. -/
def restored : State :=
  withP (withY run fun y => { y with phase := .dark }) fun x =>
    let z := x.setDom 0 { x.dom 0 with restore := true }
    { z with image := some drained }

theorem wit_restore : (∃ i, (restored.pkg 0).image = some i ∧ ∃ y, i.launches = [(0, y)] ∧ y.dom = 0 ∧ ∀ e ∈ i.tiles, e.1.1 = 0 → e.2.retired = true) ∧
    ((restored.pkg 0).dom 0).restore = true ∧ (restored.launch 0).dom = 0 ∧ (∃ z, soleLp (restored.launch 0) 0 z ∧ z.phase = .dark) :=
  ⟨⟨_, rfl, _, rfl, by decide +kernel⟩, by decide +kernel, by decide +kernel, ⟨_, ⟨by decide +kernel, rfl⟩, by decide +kernel⟩⟩

/-- What a drain image takes from here: the launch that runs, its tile and its task. -/
theorem wit_drain_start : (∃ y, Tab.find run.launches 0 = some y ∧ 0 ∈ y.pkgs ∧ 0 < y.desc.ntile) ∧ run.tilePkg 0 0 = 0 ∧ (run.tile 0 0).parked = false ∧
    ∃ k, Tab.find run.tasks (.thread 0 0 0) = some k ∧ k.status ≠ .retired :=
  ⟨⟨_, rfl, by decide +kernel⟩, by decide +kernel, by decide +kernel, ⟨_, rfl, by decide +kernel⟩⟩

theorem wit_flits : ((run.pkg 0).port 27).lost = false ∧ (((run.pkg 0).port 27).lane 63).mode = .active ∧ ((run.pkg 0).port 27).replays < 15 ∧ ((run.pkg 0).port 27).beat = 0 ∧
    15 ≤ ((ported (fun y => { y with replays := 15 }) .zero).pkg 0 |>.port 27).replays ∧ ((ported (fun y => { y with lost := true }) .zero).pkg 0 |>.port 27).lost = true ∧
    (∀ e ∈ [(767, 0x1000000000000#64)], e.1 < 768) ∧ ([(767, 0x1000000000000#64)].map (·.1)).Nodup := by decide +kernel

/-- A flit of 8 beats on 64 lanes, the stream at beat 60: its fifth beat goes on lane 0; the 16th replay loses the port (R329, R330). -/
theorem test_flit : goes (.flit 0 27 60 [0, 0, 0, 3, 5, 0, 0, 0] (List.replicate 8 false)) (ported (fun y => { y with lanes := [], beat := 60 }) .zero |>.modPkg 0 fun x =>
      { x with ports := x.ports.map fun e => (e.1, { e.2 with lanes := [] }) }) (fun t =>
      let y := (t.pkg 0).port 27
      y.corrsym == 8 && (y.lane 63).now == 3 && (y.lane 0).now == 5 && y.beat == 68) = true ∧
    goes (.flit 0 27 0 (List.replicate 8 0) [true, true, false, false, false, false, false, false]) (ported (fun y => { y with replays := 15 }) .zero) (fun t =>
      ((t.pkg 0).port 27).lost && ((t.pkg 0).port 27).uncorr == 2) = true := by decide +kernel

/-- Two packages in a launch, package 0's task sending; a packet from package 0 to package 1. -/
def two (ph : Phase) : State :=
  let s := withL run fun x => { x with pkgs := [0, 1], desc := { x.desc with npkg := 2, ntile := 2 }, lp := [(0, { LPkg.zero with phase := ph }), (1, { LPkg.zero with phase := ph })] }
  { s with tiles := s.tiles ++ [((0, 1), { (s.tile 0 0) with phys := 2048 })], pkgs := s.pkgs ++ [(1, s.pkg 0)] }

def packet (st : PktState) : Packet :=
  { src := 0, dst := 1, ra := 64, path := pathWord, launch := 0, pends := [{ tile := 0, task := 0, seq := 0, eff := .tmWrite 1 false 8 [1, 2] }], gfaa := none, st := st }

theorem wit_packets : (∀ st ∈ [PktState.inFlight, .received, .refused 0x49], let s := { two .compute with fabric := [packet st] }
      s.fabric[0]? = some (packet st) ∧ (packet st).st = st) ∧
    (packet .held).st ≠ .inFlight ∧ (∃ j, j < 1 ∧ ({ two .compute with fabric := [packet .inFlight, packet .inFlight] } : State).fabric[j]? = some (packet .inFlight)) ∧
    openOn (two .compute) 0 0 := ⟨by decide +kernel, by decide, ⟨0, by decide, by decide +kernel⟩, .inl (by decide +kernel)⟩

/-- A vote whose frame waits to be sent is open still; a GFAA packet whose task waits for it; a read that is to come from package 1 through port 27. -/
theorem wit_open_vote :
    let s := withP (two .sent) fun x => { x with tx := [frameOf 0 0 true (.vote 0 0 0 { abort := false, cause := 0, ckpt := false, reshape := false, flags := 0, digest := 0, exited := 0, req := none, partials := [] })] }
    openOn s 0 0 := .inr ⟨by decide +kernel, _, List.mem_cons_self, by decide +kernel⟩

theorem wit_gfaa_packet : let q := { packet .inFlight with gfaa := some { slot := .thread 0 0 0, id := 7, addr := 0x40000, add := 3 }, pends := [] }
    let s := { withK (two .compute) (fun k => { k with pend := [{ dst := { file := .x, num := 1 }, src := .gfaa 7 }] }) with fabric := [q] }
    s.fabric[0]? = some q ∧ q.gfaa.isSome = true ∧ (s.task (.thread 0 0 0)).pend.length = 1 := by decide +kernel

theorem wit_port_read : let s := withT (withP (two .compute) fun x => { x with paths := [(4, pathWord)] }) fun x =>
      { x with copies := [{ copyCp with ring := [(0x10000200000, 64)] }] }
    0x10000200000 ∈ s.awaited 0 0 ∧ s.remoteOf 0 0 0x10000200000 = some (1, 0x10000200000, true) ∧ (s.route 0 1 0x10000200000).map pathPort = some 27 := by decide +kernel

/-- A path table whose last entry to a known package goes. -/
theorem wit_path_gone : let s := withP (two .compute) fun x => { x with paths := [(4, pathWord)] }
    (∃ x ∈ s.pkgs, x.1 = 1) ∧ (s.pkg 1).failed = false ∧ (Tab.get (s.pkg 0).paths 0 (4 * 1 + 0)).getLsbD 48 = true ∧
    goes (.pathTableRewrite 0 [(4, 0)]) s (fun t => (t.pathsTo 0 1).isEmpty && (t.pkg 1).failed) = true :=
  by decide +kernel

/-- A packet's deltas arrive and its sender's cause is voted when it is refused (R337, R339); a lost port votes 0x42 (R338). -/
theorem test_packets : goes (.packetReceive 0) { two .compute with fabric := [packet .inFlight] } (fun t => (t.launch 0).pends == (packet .inFlight).pends && t.fabric == [packet .received]) = true ∧
    goes (.packetRefusal 0) { two .compute with fabric := [packet (.refused 0x49)] } (fun t => t.fabric == [] && (t.lpkg 0 0).causes == [0x49] && (t.lpkg 0 1).causes == []) = true ∧
    goes (.portLost 0 27) { two .compute with fabric := [packet .inFlight] } (fun t => t.fabric == [] && (t.lpkg 0 0).causes == [0x42]) = true := by decide +kernel

/-! ### The broadcast plane -/

/-- A star of packages 0 and 1 whose schedule names package 0, domain 0. -/
def starred (ph : Phase) : State := { two ph with star := { Star.zero with members := [0, 1], sched := [0x400, 0x401] } }

theorem wit_visits : let s := starred .compute
    s.star.next = none ∧ s.star.sent = [] ∧ s.star.members.Nodup ∧ s.star.sched[s.star.pos]? = some 0x400 ∧ entryValid 0x400 = true ∧ entryPkg 0x400 ∈ s.star.members ∧
    (s.pkg 0).failed = false ∧ (s.pkg 0).drain = .none ∧ (s.pkg 0).tx = [] ∧ entryDom 0x400 = 0 ∧
    ((withP s fun x => { x with failed := true }).pkg 0).failed = true ∧ (∀ x ∈ s.pkgs, x.2.txHeld = []) ∧ 0 ∉ s.star.unused := by decide +kernel

def frame (pay : Payload) : Frame := { frameOf 0 1 true pay with visit := 1 }

/-- The star with a frame for package 0 to process. -/
def framed (ph : Phase) (pay : Payload) : State := withP (starred ph) fun x => { x with rx := [(some (frame pay), 1)] }

def voteOf (a : Bool) : Vote := { abort := a, cause := if a then 0x40 else 0, ckpt := false, reshape := false, flags := 0, digest := 0, exited := 0, req := none, partials := [] }

/-- A schedule whose visit has come; a frame that a member lacks for a round, and for four rounds. -/
theorem wit_visit_repeats : let f := { frame (.notice []) with src := 0 }
    let s := { starred .compute with star := { (starred .compute).star with sent := [f], visit := 2 } }
    let u := { (s.modPkg 1 fun x => { x with rx := [(none, 1)] }) with star := { s.star with visit := 9 } }
    s.star.sent = [f] ∧ f.src = 0 ∧ f.dom = entryDom 0x400 ∧ s.readAcks.lacking f ≠ [] ∧ f.visit + (s.star.sched.filter entryValid).length ≤ s.star.visit + 1 ∧
      s.star.visit + 1 ≤ f.visit + 4 * (s.star.sched.filter entryValid).length ∧
    (1 ∈ u.star.members ∧ (u.pkg 1).failed = false ∧ f.visit + 4 * (u.star.sched.filter entryValid).length ≤ u.star.visit ∧ (none, f.visit) ∈ (u.pkg 1).rx ∧ u.readAcks.lacking f ≠ [] ∧
      goes .visit u (fun t => (t.pkg 1).failed) = true) ∧
    goes .visit { s with star := { s.star with next := some (3, [0x400]) } } (fun t => t.star.sched == [0x400] && t.star.next.isNone) = true := by decide +kernel

/-- A frame is sent to every member with the next visit number and the pawn moves on; a member that missed it keeps its place (R345, R348). -/
theorem test_visit : goes .visit (withP (starred .compute) fun x => { x with tx := [frame (.notice [(0, 1)])] }) (fun t => t.star.visit == 1 && t.star.pos == 1 && (t.pkg 0).tx == [] &&
    (t.pkg 1).rx == [(some (frame (.notice [(0, 1)])), 1)] && goes (.missedFrame 1) t fun u => (u.pkg 1).rx == [(none, 1)]) = true := by decide +kernel

theorem wit_frames : (∀ e ∈ (starred .compute).launches, ∀ y ∈ e.2.lp, y.2.phase ≠ .ended) ∧
    (∀ pay ∈ [Payload.pawn none, .pawn (some (1, [])), .bcast 0 0 [(511, 1)], .notice [(0, 1)], .commit 0 0 [], .vote 0 0 0 (voteOf false), .vote 0 0 0 (voteOf true)], let s := framed .sent pay
      (s.pkg 0).failed = false ∧ (s.pkg 0).rx = (some (frame pay), 1) :: [] ∧ 0 ∈ (s.launch 0).pkgs ∧ (s.lpkg 0 0).phase = .sent ∧ (s.lpkg 0 0).sstep = 0 ∧ (s.lpkg 0 0).reexec = 0) ∧
    ([(511, (1 : Word))].map (·.1)).Nodup ∧ ((starred .sent).pkg 0).hosts 0 = true ∧ ((starred .sent).pkg 0).hosts 1 = false ∧
    (let s := withL (framed .committed (.commit 0 0 [])) fun x => { x with lp := x.lp.map fun e => (e.1, { e.2 with sstep := 1 }) }
     (s.lpkg 0 0).phase = .committed ∧ (s.lpkg 0 0).sstep = 0 + 1 ∧ (∃ q ∈ (s.launch 0).pkgs, q ∉ (s.lpkg 0 0).notices ++ [1]) ∧
       ∀ q ∈ (s.launch 0).pkgs, q ∈ ((withY s fun y => { y with notices := [0] }).lpkg 0 0).notices ++ [1]) ∧
    Tab.find ((withY (framed .sent (.voteMore 0 0 0 [])) fun y => { y with seen := [(1, voteOf false)] }).lpkg 0 0).seen 1 = some (voteOf false) ∧
    (∃ e ∈ ((framed .sent (.vote 0 0 0 (voteOf true))).launch 0).lp, e.1 ≠ 0 ∧ e.2.phase ≠ .aborting) ∧
    (∃ q ∈ ((framed .sent (.vote 0 0 0 (voteOf false))).launch 0).pkgs, q ∉ ((framed .sent (.vote 0 0 0 (voteOf false))).lpkg 0 0).lasts ∧ ¬q = 1) := by
  and_intros
  all_goals decide +kernel

/-- A BCAST frame writes the table; the LAST COMMIT frames of both packages start the next STAGE; an abort VOTE goes to ABORT (R75, R349, R350). -/
theorem test_frames : goes (.bcastFrame 0) (framed .compute (.bcast 0 0 [(511, 7)])) (fun t => Tab.get ((t.pkg 0).dom 0).bt 0 511 == 7 && (t.pkg 0).ack == 1) = true ∧
    (let s := withL (framed .committed (.commit 0 0 [])) fun x => { x with lp := x.lp.map fun e => (e.1, { e.2 with sstep := 1, notices := [0] }) }
     goes (.commitFrame 0) s (fun t => decide ((t.lpkg 0 0).phase = .stage) && decide ((t.lpkg 0 1).phase = .committed))) = true ∧
    goes (.voteFrame 0) (framed .sent (.vote 0 0 0 (voteOf true))) (fun t => decide ((t.lpkg 0 0).phase = .aborting) && decide ((t.lpkg 0 1).phase = .sent)) = true := by decide +kernel

theorem wit_failures : (∀ e ∈ (two .compute).launches, ∀ y ∈ e.2.lp, y.2.phase ≠ .ended) ∧
    (∃ x, Tab.find (two .compute).launches 0 = some x ∧ 1 ∈ x.pkgs ∧ 1 < x.pkgs.length ∧ (∃ y ∈ x.lp, y.2.phase.runs = true)) ∧ ((two .compute).task (.thread 0 0 0)).status ≠ .retired ∧
    (let s := { (two .compute).modPkg 1 (fun x => { x with failed := true }) with pkgs := ((two .compute).modPkg 1 fun x => { x with failed := true }).pkgs ++ [(2, { Pkg.zero with spare := true })] }
     (s.pkg 1).failed = true ∧ (s.pkg 2).spare = true ∧ (s.pkg 0).failed = false ∧ ∀ e ∈ s.launches, 1 ∈ e.2.pkgs → ∃ y ∈ e.2.lp, y.2.phase ≠ .waitSpare) ∧
    (let s := (two .waitSpare).modPkg 1 fun x => { x with failed := true }
     let t := { s with pkgs := s.pkgs ++ [(2, { Pkg.zero with spare := true })] }
     (t.pkg 1).failed = true ∧ (t.pkg 2).spare = true ∧ (t.pkg 2).rx = [] ∧ t.launches.length = 1 ∧ (t.launch 0).lp ≠ [] ∧ (∀ y ∈ (t.launch 0).lp, y.2.phase = .waitSpare) ∧
       (t.launch 0).desc.replay = false ∧ (t.launch 0).holdTiles = false ∧
       goes (.spareTakeover 1 { pkg := 2, lost := [0], sched := none }) t (fun u => u.launches.isEmpty && ((u.pkg 0).dom 0).done.head?.any fun d => d.2 == 0x80) = true) := by
  and_intros
  all_goals decide +kernel

/-- A failed package stops a launch of two packages, which waits for a spare at the start of its superstep (R352, R357). -/
theorem test_failure : goes (.packageFailed 1) (two .compute) (fun t => (t.pkg 1).failed && decide ((t.lpkg 0 0).phase = .waitSpare) && decide ((t.lpkg 0 1).phase = .waitSpare) &&
    (t.task (.thread 0 0 0)).bank.pc == placedDesc.entry) = true := by decide +kernel

/-! ### The host -/

/-- A descriptor of launch 2 with its context areas at their own pages, its record in the data page. -/
def descBytes (version : Nat) : List Byte :=
  natLe 4 version ++ natLe 4 0 ++ natLe 8 vaText.toNat ++ natLe 8 77 ++ natLe 4 1 ++ natLe 8 0x0001010101010401 ++ natLe 4 0 ++ natLe 8 9 ++ natLe 8 0 ++ natLe 8 0 ++
    natLe 8 0x0000100002000000 ++ natLe 8 0x0000100003000000 ++ List.replicate 0x60 0 ++ natLe 8 (vaData.toNat + 0x1000) ++ natLe 8 2 ++ List.replicate 64 0

/-- Tables and the descriptor. -/
def hostMem : Memory :=
  labTables ++ Memory.cells 0x40000 (natLe 4 0x00100093) ++ Memory.cells 0x50000 (descBytes 0x00010001)

/-- Package 0 with that memory; a launch of domain 0 runs. -/
def hostLab : State := withP run fun x => { (x.setDom 0 { x.dom 0 with wbsel := vaRead }) with hbm := hostMem, power := { x.power with dirtyOld := [7] } }

/-- Addresses of one page have one translation (R62). -/
theorem xlateDom_congr (s : State) (p d : Nat) {a b : Nat} (h : a / 65536 = b / 65536) : s.xlateDom p d a = s.xlateDom p d b := by
  have e1 : bits a 40 7 = bits b 40 7 := by simp only [bits]; omega
  have e2 : bits a 28 12 = bits b 28 12 := by simp only [bits]; omega
  have e3 : bits a 16 12 = bits b 16 12 := by simp only [bits]; omega
  have e0 : isGlob a = isGlob b := by
    have hl : globLo = 0x10000021 * 65536 := by decide
    have hh : globHi = 0x80000000 * 65536 := by decide
    have f1 : globLo ≤ a ↔ globLo ≤ b := by omega
    have f2 : a < globHi ↔ b < globHi := by omega
    simp only [isGlob, f1, f2]
  simp only [State.xlateDom, walk, e0, e1, e2, e3]

theorem host_page : hostLab.xlateDom 0 0 vaData.toNat = some { home := 0, ppn := 5, pte := 0x50003 } := by decide +kernel

theorem host_desc : hostLab.directRead 0 0 vaData.toNat 256 = descBytes 0x00010001 := by
  have h : hostLab.directRead 0 0 vaData.toNat 256 = (List.range 256).map fun j => hostLab.physByte 0 0 5 j := by
    unfold State.directRead
    refine List.map_congr_left fun j hj => ?_
    have hj := List.mem_range.1 hj
    have hv : vaData.toNat = 0x10000101 * 65536 := by decide
    rw [xlateDom_congr hostLab 0 0 (b := vaData.toNat) (by omega), host_page]
    simp only
    congr 1
    omega
  rw [h]
  decide +kernel

theorem wit_domain_page : ((bootAt 7 0).pkg 0).boot.step < 8 ∧ 8 ≤ (hostLab.pkg 0).boot.step ∧ ((hostLab.pkg 0).dom 0).configured = true ∧ ((hostLab.pkg 0).dom 3).configured = false ∧
    64 ≤ (((hostLab.modQueue 0 0 7 fun q => { q with reserved := 64 }).pkg 0).dom 0 |>.queue 7).reserved ∧ (((hostLab.pkg 0).dom 0).queue 0).entries = [] ∧
    hostLab.descUsable 0 0 4 = false ∧ (hostLab.pkg 0).attPend = none ∧ (hostLab.validate 0 0 1 (descOf (descBytes 0x00010001)) true).isSome = true := by decide +kernel

theorem wit_valid_desc : hostLab.descUsable 0 0 vaData.toNat = true ∧ hostLab.validate 0 0 0 (descOf (hostLab.directRead 0 0 vaData.toNat 256)) true = none := by
  rw [host_desc]
  decide +kernel

theorem report_length (s : State) (p : Nat) : (s.report p).length ≤ 65536 := by
  have hn : ∀ n v, (natLe n v).length = n := by intro n; induction n <;> simp [natLe, *]
  have hs : ∀ m, (shake64 m).length ≤ 64 := fun m => by
    simp only [shake64, shake256, List.length_take]; exact Nat.le_trans (Nat.min_le_left _ _) (Nat.min_le_left _ _)
  have h1 := hs (s.devInfoBytes p)
  have h2 := hs (s.domBytes p (s.pkg p).wbdom)
  simp only [State.report, State.reportBody, List.length_append, List.length_map, List.length_range, hn, show partName.length = 8 from rfl]
  omega

theorem page_some (s : State) (p d : Nat) {a b : Nat} (h : (s.xlateDom p d b).isSome = true) (e : a / 65536 = b / 65536) : (s.xlateDom p d a).isSome = true := by
  rw [xlateDom_congr s p d e]; exact h

/-- A report to a page that is translated, and one to a page that is not. -/
theorem wit_report : (hostLab.pkg 0).wbdom = 0 ∧ (∀ j, j < 65536 → (hostLab.xlateDom 0 0 (0x10000103 * 65536 + j)).isSome = true) ∧
    (hostLab.xlateDom 0 0 0x0000100009000000).isSome = false := by
  have hx : (hostLab.xlateDom 0 0 (0x10000103 * 65536)).isSome = true := by decide +kernel
  exact ⟨by decide +kernel, fun j hj => page_some hostLab 0 0 hx (by omega), by decide +kernel⟩

/-- CLRFAIL, THR of the non-secure world, a 4-byte write (R331, R358). -/
theorem test_register_writes : goes (.registerWrite 0 0x1008 8 5 true) run (fun t => t.windowA 0 0x1008 true == 5 && t.windowA 0 0x1008 false == 0) = true ∧
    goes (.registerWrite 0 0x1008 8 5 false) run (fun t => t.windowA 0 0x1008 true == 4096) = true ∧ goes (.registerWrite 0 0x200000 4 7 true) run (fun t => (t.pkg 0).power.pwrstep == 0) = true := by
  decide +kernel

theorem wit_window_b : let s := hostLab
    (∀ j, j < 8 → s.aperturePage 0 (s.apertureVa 0 0 + j) = some { home := 0, ppn := 7, pte := 0x70001 }) ∧ s.aperturePage 0 (s.apertureVa 0 0x100000) = none ∧
    s.apertureVa 0 0 % 65536 + 64 ≤ 65536 ∧ 0 + 64 ≤ 2 ^ 30 * 2 ^ (s.pkg 0).bar ∧ ¬2 ^ 30 * 2 ^ (s.pkg 0).bar + 1 ≤ 2 ^ 30 * 2 ^ (s.pkg 0).bar ∧ s.hostMayWrite 0 { home := 0, ppn := 7, pte := 0x70001 } = true ∧ (s.pkg 0).power.dirtyNew = none ∧ 7 ∈ (s.pkg 0).power.dirtyOld ∧
    (let d := withP s fun x => x.setDom 0 { x.dom 0 with wbsel := vaData }
     d.aperturePage 0 (d.apertureVa 0 0) = some { home := 0, ppn := 5, pte := 0x50003 } ∧ d.hostMayWrite 0 { home := 0, ppn := 5, pte := 0x50003 } = false) := by decide +kernel

theorem wit_window_quiet : quiet hostLab 0 7 := .inl ⟨by decide +kernel, by decide +kernel⟩

/-- A write is read back; a read of an unmapped page is all ones (R364). -/
theorem test_window_b : goes (.windowBWrite 0 8 [1, 2, 3]) hostLab (fun t => goes (.windowBRead 0 8 4) t fun u => (u.pkg 0).hostData == [1, 2, 3, 0]) = true ∧
    goes (.windowBRead 0 0x100000 2) hostLab (fun t => (t.pkg 0).hostData == [0xFF, 0xFF]) = true := by decide +kernel

/-- Bank 3 of stack 15 in budget mode, and in tracker mode with some counters. -/
def banked (b : RowTrack) : State := withP run fun x => { x with banks := [((15, 3), b)] }
def tracking (rows : List (Nat × Nat)) : State := banked { RowTrack.zero with tracker := true, rows := rows }

theorem wit_refresh : (∀ n ∈ [0, 2046, 2047], let b := Tab.get ((banked { RowTrack.zero with acts := n }).pkg 0).banks .zero (15, 3)
      b.tracker = false ∧ b.acts = n) ∧ (Tab.get (run.pkg 0).hbmStacks .zero 15).level.toNat = 2048 ∧ (Tab.get (run.pkg 0).hbmStacks .zero 15).thr.toNat = 4096 ∧
    (∀ rows ∈ [[], [(9, 1)], [(5, 1)], [(5, 4095)], [(0, 4095)], (List.range 8).map fun k => (k + 10, 1)], let b := Tab.get ((tracking rows).pkg 0).banks .zero (15, 3)
      b.tracker = true ∧ b.rows = rows) := by decide +kernel

/-- The 4,096th counted activation of a row refreshes its neighbours; with eight other rows counted each counter drops (R86). -/
theorem test_refresh : goes (.activate 0 15 3 5) (tracking [(5, 4095)]) (fun t => let b := Tab.get (t.pkg 0).banks .zero (15, 3)
      b.rows == [] && b.directed == [4, 6]) = true ∧
    goes (.activate 0 15 3 0) (tracking [(0, 4095)]) (fun t => (Tab.get (t.pkg 0).banks .zero (15, 3)).directed == [1]) = true ∧
    goes (.activate 0 15 3 5) (tracking ((List.range 8).map fun k => (k + 10, if k = 0 then 2 else 1))) (fun t => (Tab.get (t.pkg 0).banks .zero (15, 3)).rows == [(10, 1)]) = true := by decide +kernel

theorem wit_tables : (lab.pkg 0).hosts 0 = true ∧ (lab.pkg 0).hosts 1 = false ∧ (∃ x, Tab.find lab.launches 0 = some x ∧ x.dom = 0 ∧ x.lp ≠ []) ∧
    tableNext ((lab.pkg 0).hbm.nat (0x10000 + 8 * bits vaData.toNat 40 7) 8) = some 0x20000 ∧ tableNext ((lab.pkg 0).hbm.nat (0x20000 + 8 * bits vaData.toNat 28 12) 8) = some 0x30000 ∧
    ((lab.pkg 0).dom 0).cfg.root = 0x10000 ∧ lab.domBusy 0 0 = true ∧ lab.domBusy 0 1 = false ∧ (lab.pkg 0).cfgOk 1 DomCfg.zero = false ∧ (lab.pkg 0).cfgOk 1 { DomCfg.zero with plane := 1 } = true ∧ (lab.pkg 0).cfgOk 1 { DomCfg.zero with dies := 1 } = false ∧
    (lab.pkg 0).cfgOk 1 { DomCfg.zero with plane := 1, poolSize := some 16, sched := some (9, [0x400]), partner := some 1 } = true ∧
    8 ≤ (lab.pkg 0).boot.step := by
  refine ⟨by decide +kernel, by decide +kernel, ⟨_, rfl, by decide +kernel⟩, by decide +kernel⟩

/-- A new entry is walked by the host at once and by the running launch in its next superstep (R63). -/
theorem test_page_table : goes (.pageTableWrite 0 0 vaData 0x90001) lab (fun t => t.xlateDom 0 0 vaData.toNat == some { home := 0, ppn := 9, pte := 0x90001 } &&
    t.xlate 0 0 vaData.toNat == some { home := 0, ppn := 5, pte := 0x50003 }) = true := by decide +kernel

/-! ### Supersteps -/

/-- Launch 0 in a state of its superstep; its task at SYNC. -/
def inPhase (ph : Phase) : State := withY run fun y => { y with phase := ph }
def atSync (ph : Phase) (flags : BitVec 3) : State := withK (inPhase ph) fun k => { k with status := .atSync 1 flags }

theorem wit_stages : let s := inPhase .stage
    (s.launch 0).lp ≠ [] ∧ (s.launch 0).waitPaths = [] ∧ (s.launch 0).move = none ∧ (∀ e ∈ (s.launch 0).lp, e.2.phase = .stage ∧ e.2.causes = []) ∧ (s.launch 0).fetchNow = [] ∧ (s.launch 0).desc.ctrCount = 0 ∧
    (∀ e ∈ (s.launch 0).lp, e.2.parkReq = false) ∧ (∃ e ∈ ((withY s fun y => { y with parkReq := true }).launch 0).lp, e.2.parkReq = true) ∧ (∃ e ∈ (run.launch 0).lp, e.2.phase ≠ .stage) ∧
    ((withL s fun x => { x with waitPaths := [0] }).launch 0).waitPaths ≠ [] ∧ ((withL s fun x => { x with move := some { dies := [(0, 1)], places := [(0, 16)] } }).launch 0).move ≠ none ∧
    ((withP s fun x => { x with power := { x.power with park7 := true } }).pkg 0).parksAll = true ∧ (s.pkg 0).parksAll = false := by decide +kernel

/-- An entry of 64 bytes, and a launch in STAGE whose fetch list holds it. -/
def fetchEntry (va : Word) : CopyDesc := { remote := va, tm := 0x2000, bytes := 64, rows := 1, rpitch := 64, tpitch := 64, layout := 0, flags := 0 }
def fetching (va : Word) : State := withL (withY lab fun y => { y with phase := .stage }) fun x => { x with fetchNow := [{ tile := 0, task := 0, entries := [fetchEntry va] }] }

/-- The page can be read, or not. -/
theorem wit_stage_fetch : ∀ e ∈ [(vaRead, true), ((0x0000100009000000 : Word), false)], let s := fetching e.1
    (s.launch 0).lp ≠ [] ∧ (s.launch 0).waitPaths = [] ∧ (s.launch 0).move = none ∧ (∀ y ∈ (s.launch 0).lp, y.2.phase = .stage ∧ y.2.causes = []) ∧ 0 < (s.launch 0).desc.ntile ∧
    (s.launch 0).fetchNow = [{ tile := 0, task := 0, entries := [fetchEntry e.1] }] ∧ (s.launch 0).holdTiles = false ∧
    ((s.modLaunch 0 fun y => { y with ptOld := [] }).snapshot 0).entryReadable 0 0 (fetchEntry e.1) = e.2 ∧
    ((s.modLaunch 0 fun y => { y with ptOld := [] }).snapshot 0).lostRead 0 0 vaRead.toNat = false ∧ (lineRequests ((fetchEntry vaRead).rowAddr 0) 64).map (·.1) = [vaRead.toNat] := by
  refine onList_cons ?_ (onList_cons ?_ onList_nil) <;> and_intros <;> decide +kernel

/-- Tables in which both context areas end at one level-2 page, whose 32 entries name physical page 0. -/
def areaTables : Memory :=
  Memory.cells (0x10000 + 8 * 16) (natLe 8 0x20001) ++ Memory.cells 0x20000 (natLe 8 0x30001 ++ natLe 8 0x30001) ++
    Memory.cells (0x30000 + 8 * 0x100) (natLe 8 0x40001) ++ Memory.cells (0x30000 + 8 * 0x200) ((List.range 32).flatMap fun _ => natLe 8 1)

/-- A queued launch 5 of priority `q`, with areas in different level-1 entries. -/
def queuedDesc (q : Nat) : Desc := { placedDesc with altVa := 0x0000100012000000, id := 2, flags := BitVec.ofNat 32 (256 * q), param := 77 }

/-- Two waves on a die of one usable tile: logical tile 1 is on wave 1. -/
def twoWaves : State :=
  let s := withL (withP (atSync .compute 0) fun x => { x with harvest := x.harvest.set 0 1 }) fun x => { x with desc := { x.desc with ntile := 2 } }
  { s with tiles := s.tiles ++ [((0, 1), { s.tile 0 0 with wave := 1, parked := true })] }

/-- The launch's only package is 0, at some superstep state. -/
theorem wit_sole : soleLp (run.launch 0) 0 (run.lpkg 0 0) ∧ soleLp (twoWaves.launch 0) 0 (twoWaves.lpkg 0 0) ∧ twoWaves.waveDone 0 = true := by
  unfold soleLp; decide +kernel

/-- A wave of which one tile has still to be saved. -/
def waveSaving : State :=
  let s := withT (withP twoWaves fun x => { x with hbm := areaTables }) fun x => { x with saving := true }
  withL (withY s fun y => { y with wave := 1 }) fun x => { x with desc := { queuedDesc 0 with ntile := 2 } }

/-- The same, with the other tile's area on pages of their own, where its image is valid. -/
def imagedMem : Memory :=
  areaTables ++ Memory.cells (0x30000 + 8 * 0x220) ((List.range 32).flatMap fun _ => natLe 8 0x60001) ++ Memory.cells 0x60004 [1] ++ Memory.cells 0x66008 [7]
def waveImaged : State := withP waveSaving fun x => { x with hbm := imagedMem }

theorem wit_wave_saved : soleLp (waveSaving.launch 0) 0 (waveSaving.lpkg 0 0) ∧ (waveSaving.lpkg 0 0).phase = .compute ∧ (waveSaving.launch 0).move = none ∧
    (waveSaving.launch 0).moveHeld = false ∧ (waveSaving.tile 0 0).saving = true ∧ (waveSaving.tile 0 1).saving = false ∧
    (waveSaving.saveTile 0 0 (waveSaving.tile 0 0).altSave).2 = true := by unfold soleLp; decide +kernel

/-- At the end of a wave its tiles are saved, and then the next wave's tile is loaded and runs and the first one is parked (R19, R310, R312); without a
valid image the tiles are held (R327). -/
theorem test_wave_end : goes (.waveEnd 0) twoWaves (fun t => (t.lpkg 0 0).wave == 1 && (t.tile 0 0).saving && !(t.tile 0 1).saving) = true ∧
    goes (.contextSaveComplete 0 0 .written) waveSaving (fun t => (t.launch 0).moveHeld) = true ∧
    goes (.contextSaveComplete 0 0 .written) waveImaged (fun t => (t.tile 0 0).parked && !(t.tile 0 1).parked && t.tmByte 0 1 8 == 7) = true ∧
    goes (.stageEnd 0) (inPhase .stage) (fun t => decide ((t.lpkg 0 0).phase = .compute)) = true := by decide +kernel

/-- Two tasks wrote the same word of tile 0 in a launch that reports conflicts. -/
def conflicting (flags : BitVec 3) : State :=
  withL (atSync .closing flags) fun x =>
    { x with desc := { x.desc with flags := 4 }, pends := [{ tile := 0, task := 0, seq := 0, eff := .tmWrite 0 true 8 [1] }, { tile := 0, task := 1, seq := 0, eff := .tmWrite 0 true 8 [2] }] }

theorem wit_votes : (∀ f ∈ [(0 : BitVec 3), 4], let s := atSync .closing f
      (s.lpkg 0 0).phase = .closing ∧ (s.lpkg 0 0).causes = [] ∧ s.drained 0 0 = true ∧ s.conflictsOn 0 0 = [] ∧ soleLp (s.launch 0) 0 (s.lpkg 0 0)) ∧
    (∀ f ∈ [(0 : BitVec 3), 4], (conflicting f).conflictsOn 0 0 ≠ [] ∧ (conflicting f).drained 0 0 = true ∧ (conflicting f).syncFlag 0 0 2 = decide (f = 4)) ∧
    (∀ c ∈ [0x40, 0x41, 0x42, 0x43, 0x44, 0x45, 0x46, 0x47, 0x48, 0x49, 0x4A], let s := withY run fun y => { y with causes := [c], aborts := 2 }
      (s.lpkg 0 0).causes = [c] ∧ (s.lpkg 0 0).aborts < (s.launch 0).desc.limit ∧ (s.lpkg 0 0).phase = .compute) ∧ (run.task (.thread 0 0 0)).status ≠ .retired ∧
    (run.lpkg 0 0).phase ≠ .closing ∧ (run.lpkg 0 0).causes = [] ∧ (run.lpkg 0 0).phase ≠ .aborting := by unfold soleLp; decide +kernel

/-- At the limit, serialised, with an abort vote, and with a digest that differs from entry 0 of a log of one. -/
theorem wit_limits : (let s := withY run fun y => { y with causes := [0x40], aborts := 3 }
      (s.launch 0).desc.limit ≤ (s.lpkg 0 0).aborts) ∧
    ((withL (withY run fun y => { y with causes := [0x45] }) fun x => { x with serial := true }).launch 0).serial = true ∧
    (let s := withL (withY (inPhase .voted) fun y => { y with vote := some (voteOf true) }) id
     soleLp (s.launch 0) 0 (s.lpkg 0 0) ∧ (s.lpkg 0 0).vote = some (voteOf true) ∧ (s.lpkg 0 0).aborts < (s.launch 0).desc.limit ∧ (s.lpkg 0 0).causes = []) ∧
    (let s := withL (withP (withY lab fun y => { y with phase := .voted, vote := some (voteOf false) }) fun x => { x with hbm := labTables ++ Memory.cells 0x70000 (natLe 8 1) ++ Memory.cells 0x70040 (natLe 8 9) })
        fun x => { x with desc := { x.desc with digestVa := vaRead, digestMode := 2 } }
     (s.launch 0).desc.digestMode = 2 ∧ (s.lpkg 0 0).sstep < leNat (s.directRead 0 0 vaRead.toNat 8) ∧
       leNat (s.directRead 0 0 (vaRead.toNat + 0x40 + 8 * (s.lpkg 0 0).sstep) 8) ≠ (voteOf false).digest.toNat) := by unfold soleLp; decide +kernel

/-- An abort restores the retained bank and runs the superstep again (R303, R304); a conflict raises 0x4A (R325). -/
theorem test_aborts : goes (.earlyAbort 0) (withX (withY run fun y => { y with causes := [0x40] }) [(5, 9)]) (fun t => decide ((t.lpkg 0 0).phase = .stage) && (t.lpkg 0 0).reexec == 1 &&
      (t.task (.thread 0 0 0)).bank.rx 5 == 0 && (t.launch 0).pends == []) = true ∧
    goes (.vote 0 0) (conflicting 4) (fun t => (t.lpkg 0 0).causes == [0x46, 0x4A]) = true ∧ goes (.vote 0 0) (atSync .closing 4) (fun t => match (t.lpkg 0 0).vote with
      | some v => v.abort
      | none => false) = true := by decide +kernel

/-- A one-package launch that has voted with one delta queued. -/
def voted (ckpt : Bool) : State :=
  withL (withY (atSync .voted 0) fun y => { y with vote := some { voteOf false with ckpt := ckpt } }) fun x =>
    { x with pends := [{ tile := 0, task := 0, seq := 0, eff := .tmWrite 0 true 8 [1, 2] }] }

theorem wit_commit : ∀ c ∈ [false, true], let s := voted c
    soleLp (s.launch 0) 0 (s.lpkg 0 0) ∧ (s.lpkg 0 0).phase = .voted ∧ (s.lpkg 0 0).vote = some { voteOf false with ckpt := c } ∧ (s.launch 0).desc.digestMode = 0 ∧ (s.launch 0).shadows = [] ∧
    (s.launch 0).desc.elastic = false ∧ (s.launch 0).demand = 0 ∧ (s.launch 0).pends = [{ tile := 0, task := 0, seq := 0, eff := .tmWrite 0 true 8 [1, 2] }] ∧
    0 < (s.launch 0).desc.ntile ∧ 0 < (s.launch 0).desc.tasks ∧ s.tilePkg 0 0 = 0 ∧ (s.task (.thread 0 0 0)).status = .atSync 1 0 := by unfold soleLp; decide +kernel

/-- Deltas of two tasks to one byte: the second task's has the greater key. -/
theorem wit_commit_keys : let a : Pend := { tile := 0, task := 0, seq := 5, eff := .tmWrite 0 true 8 [1, 2] }
    let b : Pend := { tile := 0, task := 1, seq := 0, eff := .tmWrite 0 false 9 [3] }
    (∀ e ∈ [a, b], ∃ tgt own n bs, e.eff = .tmWrite tgt own n bs) ∧ (a.tile < b.tile ∨ a.tile = b.tile ∧ (a.task < b.task ∨ a.task = b.task ∧ a.seq.toNat < b.seq.toNat)) ∧
    goes (.ladderClose 0 0) (withL (voted false) fun x => { x with pends := [b, a] }) (fun t => t.tmByte 0 0 8 == 1 && t.tmByte 0 0 9 == 3) = true :=
  ⟨onList_cons ⟨_, _, _, _, rfl⟩ (onList_cons ⟨_, _, _, _, rfl⟩ onList_nil), by decide, by decide +kernel⟩

/-- The delta shows in committed TM, SSTEP advances, and a checkpoint pauses (R26, R57, R351). -/
theorem test_commit : goes (.ladderClose 0 0) (voted false) (fun t => t.tmByte 0 0 8 == 1 && t.tmByte 0 0 9 == 2 && t.tmByte 0 0 10 == 0 && decide ((t.lpkg 0 0).phase = .stage) &&
      (t.lpkg 0 0).sstep == 1 && decide ((t.task (.thread 0 0 0)).status = .running)) = true ∧
    goes (.ladderClose 0 0) (voted true) (fun t => decide ((t.lpkg 0 0).phase = .paused)) = true := by decide +kernel

theorem wit_pause : let s := withP (inPhase .paused) fun x => { x with partner := [(0, 1)] }
    (s.tile 0 0).parked = false ∧ soleLp (s.launch 0) 0 (s.lpkg 0 0) ∧ (s.lpkg 0 0).phase = .paused ∧ Tab.find (s.pkg 0).partner (s.launch 0).dom = some 1 := by unfold soleLp; decide +kernel

theorem wit_errors : 0 < (run.launch 0).desc.ntile ∧ openOn run 0 (run.tilePkg 0 0) ∧ (run.launch 0).desc.replay = false ∧ (run.launch 0).holdTiles = false ∧
    ((inPhase .held).lpkg 0 ((inPhase .held).tilePkg 0 0)).phase = .held ∧ ((inPhase .aborting).lpkg 0 0).phase = .aborting ∧
    (∃ h ∈ (lab.launch 0).shadows, h.home = 0 ∧ h.ppn = 0x100000) ∧ (∃ l x, (l, x) ∈ run.launches ∧ (0, 0) ∈ x.dies ∧ (run.launch l).atCommit = false) ∧
    (∀ e ∈ run.launches, (0, 3) ∉ e.2.dies) := by
  and_intros
  all_goals first | decide +kernel | exact .inl (by decide +kernel) | exact ⟨0, _, List.mem_cons_self, by decide +kernel⟩

/-- A launch that stands at a commit on a die, with none in its place. -/
theorem wit_die_lost : let s := withP (withY (inPhase .paused) fun y => { y with sstep := 1 }) fun x => x.setDom 0 { x.dom 0 with cfg := { (x.dom 0).cfg with dies := 1 } }
    ∃ x, s.launches = [(0, x)] ∧ (0, 0) ∈ x.dies ∧ x.atCommit = true ∧ s.freeDies 0 x.dom x.desc.dieMask = [] ∧ x.desc.elastic = false ∧
      (x.dies.filter fun e => e.1 = 0 ∧ e.2 ≠ 0).length < x.desc.minDies ∧ x.holdTiles = false :=
  ⟨_, rfl, by decide +kernel⟩

theorem test_die_lost : goes (.dieOutOfService 0 0) (withP (withY (inPhase .paused) fun y => { y with sstep := 1 }) fun x => x.setDom 0 { x.dom 0 with cfg := { (x.dom 0).cfg with dies := 1 } })
    (fun t => decide (Tab.find t.launches 0 = none) && ((t.pkg 0).dom 0).done.head? == some (1, 0x84)) = true := by decide +kernel

/-- An uncorrectable error in an accumulator votes 0x40, one in committed TM ends a launch without REPLAY with 0x80 (R307); a free die leaves service (R371). -/
theorem test_errors : goes (.sramError 0 0 .accumulators false) run (fun t => (t.lpkg 0 0).causes == [0x40]) = true ∧
    goes (.sramError 0 0 .committedTm false) run (fun t => decide (Tab.find t.launches 0 = none) && ((t.pkg 0).dom 0).done.head? == some (1, 0x80)) = true ∧
    goes (.dieOutOfService 0 3) run (fun t => !(t.pkg 0).usable 3 0 0 && (t.pkg 0).usable 4 0 0) = true := by decide +kernel

def queued (q : Nat) (others : Tab Nat Launch) : State :=
  { (run.modQueue 0 0 q fun y => { y with entries := [5] }) with
    launches := others ++ [(5, { Launch.zero with id := 2, desc := queuedDesc q, pkgs := [0] })] }

theorem wit_start : let s := withP (queued 0 []) fun x => { x with hbm := areaTables }
    s.open 0 0 = true ∧ s.firstFailed 0 0 = none ∧ s.mayStart 0 0 = true ∧ s.nextLaunch 0 0 = some 5 ∧ s.grantFor (s.launch 5) = some [(0, 0)] ∧ (s.launch 5).lp = [] ∧ (s.launch 5).initial = [] ∧ (s.launch 5).desc.qrVa = 0 ∧
    s.areasOk 5 = true ∧ (run.nextLaunch 0 0 = none ∧ run.firstFailed 0 0 = none) ∧ (bootAt 7 0).open 0 0 = false ∧ run.open 0 3 = false := by decide +kernel

theorem wit_scheduler : (let s := queued 0 []
      ((((s.pkg 0).dom 0).queue 0).ahead ++ (((s.pkg 0).dom 0).queue 0).entries)[0]? = some 5 ∧ (s.launch 5).desc.prio + (s.launch 5).aged < 7) ∧
    7 ≤ ((queued 7 []).launch 5).desc.prio ∧ (run.launch 0).running = true ∧ (∀ e ∈ (run.launch 0).lp, e.2.parkReq = false ∧ 0x47 ∉ e.2.causes) ∧ run.ask 0 = none ∧
    (let s := queued 1 run.launches
     s.ask 0 = some .preempt ∧ (s.launch 0).running = true ∧ 0 ∈ (s.launch 0).pkgs ∧ (s.lpkg 0 0).phase = .compute) ∧
    (let s := queued 1 ((withY (withL run fun x => { x with desc := { x.desc with flags := 8, minDies := 0 } }) fun y => { y with phase := .paused }).launches)
     s.ask 0 = some (.demand 5 1) ∧ (s.lpkg 0 0).phase = .paused ∧ (s.launch 0).running = true) ∧
    (run.pkg 0).parksAll = false ∧ (let s := withY (withPower fun w => { w with park7 := true }) id
      (s.pkg 0).parksAll = true ∧ ((s.launch 0).onPkg 0).phase = .compute) := by decide +kernel

/-- A queued launch of higher priority pre-empts with 0x47 (R33); the park's time-out aborts with 0x48 (R376). -/
theorem test_scheduler :
    goes (.preemptionRequest 0) (queued 1 run.launches) (fun t => (t.lpkg 0 0).causes == [0x47]) = true ∧
    goes (.powerParkTimeout 0) (withPower fun w => { w with park7 := true }) (fun t => (t.lpkg 0 0).causes == [0x48]) = true := by decide +kernel

/-- A parking launch whose areas are mapped; its first tile, and with two tiles the second, are being saved. -/
def parking (alt : Bool) (n : Nat) : State :=
  let s := withT (withP (withL (inPhase .parking) fun x => { x with desc := { queuedDesc 0 with ntile := n } }) fun x => { x with hbm := areaTables }) fun x => { x with altSave := alt, saving := true }
  if n = 1 then s else s.modTile 0 1 fun _ => { s.tile 0 0 with altSave := false }

theorem wit_saves : (∀ a ∈ [false, true], ((parking a 1).tile 0 0).saving = true ∧ ((parking a 1).lpkg 0 ((parking a 1).tilePkg 0 0)).phase = .parking ∧ ((parking a 1).tile 0 0).altSave = a ∧
      ((parking a 1).launch 0).moveHeld = false) ∧
    ((withT (inPhase .parking) fun x => { x with saving := true }).saveTile 0 0 false).2 = false ∧ ((inPhase .parking).tile 0 0).saving = false ∧
    (∃ m, m < ((parking false 2).launch 0).desc.ntile ∧ m ≠ 0 ∧ ((parking false 2).tile 0 m).saving = true) ∧ ((parking false 1).launch 0).desc.ntile = 1 ∧
    ((withT (inPhase .compute) fun x => { x with saving := true, altSave := true }).lpkg 0 0).phase = .compute ∧
    (∀ e ∈ ((inPhase .held).launch 0).lp, e.2.phase = .held) ∧ ((inPhase .held).launch 0).holdTiles = false ∧ (withT (inPhase .held) fun x => { x with saving := true }).allSaved 0 = false ∧ ((inPhase .held).launch 0).lp ≠ [] ∧
    (run.launch 0).dead = false ∧ ((inPhase .failed).launch 0).dead = true := by
  refine ⟨by decide +kernel, by decide +kernel, by decide +kernel, ⟨1, by decide +kernel⟩, by decide +kernel⟩

theorem wit_saved : ((parking false 1).saveTile 0 0 false).2 = true := by decide +kernel

/-- A save that fails at both areas holds the launch (R318); a held launch that firmware gives up completes with 0x82 (R327). -/
theorem test_saves : goes (.contextSaveComplete 0 0 .uncorrectable) (parking false 1) (fun t => (t.tile 0 0).altSave) = true ∧
    goes (.contextSaveComplete 0 0 .uncorrectable) (parking true 1) (fun t => decide ((t.lpkg 0 0).phase = .held)) = true ∧
    goes (.heldLaunchDecision 0 false) (inPhase .held) (fun t => decide (Tab.find t.launches 0 = none) && ((t.pkg 0).dom 0).done.head? == some (1, 0x82)) = true ∧
    goes (.heldTilesRelease 0) (inPhase .failed) (fun t => decide (Tab.find t.tiles (0, 0) = none)) = true := by decide +kernel

/-! ### Trap delivery and isolation -/

/-- A frozen task on a package whose tile 0 has tile 1 as its buddy and a handler image. -/
def frozen (c : BitVec 8) (esc : Bool) : State :=
  let r : TrapRec := { cause := c, pc := placedDesc.entry, tval := 0, inrep := false, cmp := none, alt := false, det := false, rerun := false, serial := false, delivered := esc }
  withK (withP run fun x => { (x.setDom 0 { x.dom 0 with cfg := { (x.dom 0).cfg with handlerVa := vaRead } }) with pairs := [(0, 0x11)] }) fun k =>
    { k with status := if esc then .escalated r else .frozen r }

theorem wit_delivery : (match ((frozen 8 false).task (.thread 0 0 0)).status with | .frozen r => !r.delivered | _ => false) = true ∧ ((frozen 8 false).task (.thread 0 0 0)).pend = [] ∧
    (((frozen 8 false).pkg 0).dom 0).cfg.handlerVa ≠ 0 ∧ ((run.pkg 0).dom 0).cfg.handlerVa = 0 := by decide +kernel

theorem wit_handler_slots : (let s := frozen 8 false
      s.handlerFor (s.tilePkg 0 0) (s.tile 0 0).phys = some (1, false) ∧ (s.handler 0 1).serving = none ∧ (s.handler 0 1).queue = [] ∧
      (let b := s.setHandler 0 1 { serving := some (.thread 9 0 0, false), queue := [] }
       b.handlerFor 0 (b.tile 0 0).phys = some (1, false) ∧ (b.handler 0 1).serving = some (.thread 9 0 0, false))) ∧
    run.handlerFor (run.tilePkg 0 0) (run.tile 0 0).phys = none ∧
    (∀ c ∈ [(0x0B : BitVec 8), 0x05, 0x08], (match ((frozen c true).task (.thread 0 0 0)).status with | .escalated r => r.cause == c | _ => false) = true) ∧
    ((frozen 5 true).pkg 0).hosts ((frozen 5 true).launch 0).dom = true := by decide +kernel

/-- The buddy's slot starts at the handler image (R292, R293); a killed task is killed, a demanded page resumes it (R298, R326). -/
theorem test_delivery : goes (.trapDelivery 0 0 0) (frozen 8 false) (fun t => (t.handler 0 1).serving == some (.thread 0 0 0, false) && (t.task (.handler 0 1)).bank.pc == vaRead) = true ∧
    goes (.trapDelivery 0 0 0) run (fun t => decide (t = run)) = true ∧
    goes (.escalatedTrap 0 0 0 .kill) (frozen 8 true) (fun t => decide ((t.task (.thread 0 0 0)).status = .killed)) = true ∧
    goes (.escalatedTrap 0 0 0 (.map 0 9)) (frozen 5 true) (fun t => decide ((t.task (.thread 0 0 0)).status = .running)) = true := by decide +kernel

theorem wit_isolation : run.cur = .thread 0 0 0 ∧ isEvent (.sd 1 0 0) = false ∧ (run.launch 0).holdTiles = false ∧
    goes (.sd 1 0 0) run (fun t => decide (Tab.find t.launches 0 ≠ none) && (t.launch 0).restarts == (run.launch 0).restarts) = true := by decide +kernel

/-! ### Results by hand -/

/-- The instruction leaves this value in x1. -/
def gives (i : Instr) (s : State) (v : Word) : Bool := goes i s fun t => t.rx 1 == v

/-- x2 = −2^63, x3 = −1, x4 = 7. -/
def slab : State := withX run [(2, 0x8000000000000000), (3, 0xFFFFFFFFFFFFFFFF), (4, 7)]

/-- Wraps, sign changes and full-width shifts (R161–R164), computed by hand. -/
theorem test_integer : ([(.addi 1 3 1, 0), (.addiw 1 2 (-1), 0xFFFFFFFFFFFFFFFF), (.slti 1 2 0, 1), (.sltiu 1 2 1, 0), (.xori 1 4 (-1), 0xFFFFFFFFFFFFFFF8), (.ori 1 4 8, 15),
    (.andi 1 3 12, 12), (.slli 1 4 63, 0x8000000000000000), (.srli 1 2 63, 1), (.srai 1 2 63, 0xFFFFFFFFFFFFFFFF), (.slliw 1 4 31, 0xFFFFFFFF80000000), (.srliw 1 3 28, 15),
    (.sraiw 1 3 31, 0xFFFFFFFFFFFFFFFF), (.add 1 2 2, 0), (.sub 1 0 4, 0xFFFFFFFFFFFFFFF9), (.sll 1 4 3, 0x8000000000000000), (.slt 1 2 4, 1), (.sltu 1 2 4, 0), (.xor 1 3 4, 0xFFFFFFFFFFFFFFF8),
    (.srl 1 2 3, 1), (.sra 1 2 4, 0xFF00000000000000), (.or 1 4 2, 0x8000000000000007), (.and 1 3 4, 7), (.addw 1 3 4, 6), (.subw 1 0 4, 0xFFFFFFFFFFFFFFF9), (.sllw 1 4 3, 0xFFFFFFFF80000000),
    (.srlw 1 3 4, 0x1FFFFFF), (.sraw 1 3 4, 0xFFFFFFFFFFFFFFFF), (.mul 1 3 4, 0xFFFFFFFFFFFFFFF9), (.mulh 1 2 3, 0), (.mulhsu 1 3 3, 0xFFFFFFFFFFFFFFFF), (.mulhu 1 3 3, 0xFFFFFFFFFFFFFFFE),
    (.mulw 1 3 4, 0xFFFFFFFFFFFFFFF9), (.lui 1 0x80000, 0xFFFFFFFF80000000), (.auipc 1 1, 0x0000100001001000), (.jal 1 8, 0x0000100001000004)] : List (Instr × Word)).all (fun e => gives e.1 slab e.2) = true := by
  decide +kernel

/-- A quotient arrives at its completion: by zero, of the most negative number by −1, and rounding towards zero (R90, R163). -/
theorem test_divide : ([(.div 1 4 0, 0xFFFFFFFFFFFFFFFF), (.div 1 2 3, 0x8000000000000000), (.rem 1 2 3, 0), (.remu 1 4 0, 7), (.divu 1 3 4, 0x2492492492492492), (.divw 1 3 4, 0), (.remw 1 3 4, 0xFFFFFFFFFFFFFFFF),
    (.divuw 1 3 0, 0xFFFFFFFFFFFFFFFF), (.rem 1 3 4, 0xFFFFFFFFFFFFFFFF)] : List (Instr × Word)).all (fun e => goes e.1 slab fun t => gives (.divideComplete (.thread 0 0 0)) t e.2) = true := by
  decide +kernel

/-- Taken and not taken (R165). -/
theorem test_branches : ([(.beq 2 2 (-4), 0xFFFFFFFFFFFFFFF8), (.bne 2 2 16, 4), (.blt 2 4 16, 32), (.bge 2 4 16, 4), (.bltu 2 4 16, 4), (.bgeu 2 4 16, 32)] : List (Instr × Word)).all (fun e =>
    goes e.1 slab fun t => t.bank.pc == slab.bank.pc + e.2) = true := by decide +kernel

/-- Byte k of v1 is k, of v2 is 255 − k. -/
def blab : State := withV (withX run [(2, 3)]) [(1, vbuild 8 256 fun k => k), (2, vbuild 8 256 fun k => 255 - k)]

/-- The first bytes of v3 after the instruction. -/
def bytes3 (i : Instr) (l : List Nat) : Bool := goes i blab fun t => (List.range l.length).all fun k => elt 8 (t.bank.rv 3) k == l.getD k 0

/-- Integer lanes, moves and permutes (R204–R207), computed by hand. -/
theorem test_lanes_by_hand : ([(.vadd .i8 3 1 2 0, [255, 255]), (.vsub .i8 3 1 2 0, [1, 3, 5]), (.vmul .i8 3 1 1 0, [0, 1, 4, 9]), (.vmulh .i8 3 2 2 0, [0, 0, 0]), (.vand .i8 3 1 2 0, [0, 0]),
    (.vxor .i8 3 1 2 0, [255, 255]), (.vmin .i8 3 1 2 0, [255, 254]), (.vmax .i8 3 1 2 0, [0, 1]), (.vminu .i8 3 1 2 0, [0, 1]), (.vmaxu .i8 3 1 2 0, [255, 254]), (.vperm .i8 3 1 2 0, [255, 254]),
    (.vslup .i8 3 1 2 0, [0, 0, 0, 0, 1]), (.vsldn .i8 3 1 2 0, [3, 4, 5]), (.vzip .i8 3 1 2 0, [0, 255, 1, 254]), (.vunzip .i8 3 1 2 0, [0, 2, 4]), (.viota .i8 3 0, [0, 1, 2]), (.vdupx .i8 3 2 0, [3, 3]),
    (.visumr .i8 3 1 0, [128, 0]), (.vsll .i8 3 1 1 0, [0, 2, 8, 24]), (.vsrl .i8 3 2 1 0, [255, 127, 63]), (.vsra .i8 3 2 1 0, [255, 255, 255])] : List (Instr × List Nat)).all (fun e => bytes3 e.1 e.2) = true := by
  decide +kernel

/-- The code in lane 0 of v4 after an FP32 instruction on 1.0, 2.0 and v4 = 0. -/
def first4 (i : Instr) (c : Nat) : Bool := goes i flab fun t => elt 32 (t.bank.rv 4) 0 == c

/-- FP32 lanes (R110, R195): 1 + 2, 1 − 2, 1 × 2, 0 − 1 × 2, least, greatest, −1, and BF16 1.0. -/
theorem test_fp_by_hand : ([(.vfadd .f32 4 1 2 0, 0x40400000), (.vfsub .f32 4 1 2 0, 0xBF800000), (.vfmul .f32 4 1 2 0, 0x40000000), (.vfnms .f32 4 1 2 0, 0xC0000000), (.vfmin .f32 4 1 2 0, 0x3F800000),
    (.vfmax .f32 4 1 2 0, 0x40000000), (.vfneg .f32 4 1 0, 0xBF800000), (.vfcvt .bf16 .f32 4 1 0, 0x3F803F80), (.vcvtn 4 1 1 0, 0x30303030), (.vaddi .f32 2 0x3F80, 0)] : List (Instr × Nat)).all (fun e => first4 e.1 e.2) = true := by
  decide +kernel


/-- SHAKE256 of no bytes and of "abc" (the published answers of FIPS 202). -/
theorem test_shake : shake256 [] 8 = [0x46, 0xB9, 0xDD, 0x2B, 0x0B, 0xA8, 0x8D, 0x13] ∧ shake256 [0x61, 0x62, 0x63] 4 = [0x48, 0x33, 0x66, 0x60] := by decide +kernel

/-! ### Refused pages, restarts, and vectors that trap -/

/-- A package whose region table admits no page to any domain. -/
def refusing : State := withX (withP lab fun x => { x with regions := [] }) [(2, vaData)]

theorem wit_region_refusal : refusing.cur = .thread 0 0 0 ∧ isGlob vaData.toNat = true ∧ refusing.readyFor (.ld 1 2 0) = true ∧ refusing.readyFor (.sd 1 2 0) = true ∧
    refusing.xlate 0 0 vaData.toNat = some { home := 0, ppn := 5, pte := 0x50003 } ∧ refusing.physOk { home := 0, ppn := 5, pte := 0x50003 } 0 = false ∧
    lab.physOk { home := 0, ppn := 5, pte := 0x50003 } 0 = true ∧ isGlob (8 : Nat) = false ∧ lab.xlate 0 0 0x0000100009000000 = none := by decide +kernel

/-- The region table's refusal freezes the task with 0x03 and is logged (R366). -/
theorem test_region_refusal : goes (.ld 1 2 0) refusing (fun t => ((t.pkg 0).dom 0).evhead == 1 && match (t.task t.cur).status with
    | .frozen r => r.cause == 0x03 && r.tval == vaData
    | _ => false) = true := by decide +kernel

/-- A launch on two packages of which one has applied its commit, and launches that may restart with a frame of their run on its way and without. -/
def mayRestartLab (frames : List (Option Frame × Nat)) : State :=
  withP (withL run fun x => { x with desc := { x.desc with flags := 2 } }) fun x => { x with rx := frames }

theorem wit_restart : (let s := (two .committed).modLpkg 0 0 fun y => { y with sstep := 1 }
     s.cur = .thread 0 0 0 ∧ (s.launch 0).split = true ∧ (s.launch 0).fault = none) ∧ (run.launch 0).split = false ∧ (run.launch 0).desc.replay = false ∧
    ∀ r ∈ [[], [(some (frame (.vote 0 0 0 (voteOf false))), 1)]], ((mayRestartLab r).launch 0).split = false ∧ ((mayRestartLab r).launch 0).desc.replay = true ∧
      ((mayRestartLab r).launch 0).restarts < ((mayRestartLab r).launch 0).desc.limit ∧ ((mayRestartLab r).launch 0).trigs = [] ∧
      ((mayRestartLab r).launch 0).outward = false ∧ (mayRestartLab r).cur = .thread 0 0 0 := by decide +kernel

theorem wit_frames_in : framesIn (mayRestartLab [(some (frame (.vote 0 0 0 (voteOf false))), 1)]) 0 :=
  ⟨(0, (mayRestartLab [(some (frame (.vote 0 0 0 (voteOf false))), 1)]).pkg 0), by decide +kernel, by decide +kernel,
    .inr ⟨(some (frame (.vote 0 0 0 (voteOf false))), 1), by decide +kernel, .inr ⟨_, rfl, by decide +kernel⟩⟩⟩

theorem wit_no_frames_in : ¬framesIn (mayRestartLab []) 0 := by
  have h : (mayRestartLab []).pkgs.all (fun e => (e.2.tx ++ e.2.txHeld).isEmpty && e.2.rx.isEmpty) = true := by decide +kernel
  rintro ⟨e, he, -, h'⟩
  have := List.all_eq_true.mp h e he
  rw [Bool.and_eq_true, List.isEmpty_iff, List.isEmpty_iff] at this
  rw [this.1, this.2] at h'
  simp at h'

/-- What a check of R214 finds wrong, as a Bool. -/
def badB (s : State) (st : Bool) (f : VForm) (n b : Nat) : Bool :=
  let x := s.launch 0
  let reg := fun c => regionOf x.desc.tmSize x.desc.ntile (f.addr c).toNat
  match n, reg b with
  | 1, r => r == .none || r == .handlerWin || (List.range b).any fun c => f.act c && (f.contiguous || c / 4 == b / 4) && (reg c).tag != r.tag
  | 2, .peer u _ => (s.tile 0 u).retired
  | 3, .glob => (s.xlate 0 (s.tilePkg 0 0) (f.addr b).toNat).isNone
  | 4, .glob => (s.xlate 0 (s.tilePkg 0 0) (f.addr b).toNat).any fun g =>
      pteSec g.pte || !s.physOk g x.dom || st && (!pteW g.pte || s.isRed 0 g (f.addr b).toNat || x.inCounters (f.addr b).toNat)
  | 4, .devInfo _ => st
  | 4, .l2p _ => st
  | 5, .own o => if st then decide ((s.tile 0 0).owner o ≠ .own 0) else ((s.tile 0 0).owner o).isEngine
  | _, _ => false

theorem bad_iff (s : State) (st : Bool) (f : VForm) (n b : Nat) : f.bad s 0 0 0 st n b ↔ badB s st f n b = true := by
  unfold VForm.bad badB
  dsimp only
  split <;> simp_all [VForm.together, Option.any_eq_true, and_assoc, or_assoc]

/-- Byte lane `b` is the lowest at which the first failing check of its piece fails. -/
def firstBad (s : State) (st : Bool) (f : VForm) (n b : Nat) : Bool :=
  f.act b && (f.addr (if f.contiguous then 0 else b / 4 * 4)).toNat % 4 == 0 && badB s st f n b &&
    (List.range 256).all fun c => !f.act c || !(f.contiguous || c / 4 == b / 4) || [1, 2, 3, 4, 5].all fun m => !badB s st f m c || decide (n < m ∨ (n = m ∧ b ≤ c))

theorem wit_first_bad {s : State} {st : Bool} {f : VForm} {n b : Nat} (h : firstBad s st f n b = true) : f.act b = true ∧ f.bad s 0 0 0 st n b ∧
    ∀ c m, c < 256 → f.act c = true → f.together c b → f.bad s 0 0 0 st m c → n < m ∨ (n = m ∧ b ≤ c) := by
  simp only [firstBad, Bool.and_eq_true, List.all_eq_true, List.mem_range, Bool.or_eq_true, Bool.not_eq_true', decide_eq_true_eq, beq_iff_eq] at h
  refine ⟨h.1.1.1, (bad_iff ..).mpr h.1.2, fun c m hc ha ht hb => ?_⟩
  have hb' := (bad_iff ..).mp hb
  have hm : m ∈ [1, 2, 3, 4, 5] := by
    match m with
    | 0 => exact absurd hb' (by simp [badB])
    | 1 | 2 | 3 | 4 | 5 => decide
    | m + 6 => exact absurd hb' (by simp [badB])
  have near : (f.contiguous || c / 4 == b / 4) = true := by simpa [VForm.together] using ht
  exact ((((h.2 c hc).resolve_left (by simp [ha, near]))) m hm).resolve_left (by simp [hb'])

/-- Loads and stores that each check of R214 stops: outside every region, past own TM, a retired tile's, an unmapped page's, a page that the
region table refuses, a store to the device information and to a read-only page, an engine's block, a read-only block, a block of one element. -/
theorem wit_vector_checks :
    let s := withX (withT lab fun x => { x with retired := true, ownCur := x.ownCur.set 1 (.engine 0) }) [(2, 0x1E0000), (3, 0x1DFFF0), (4, 0x10000000000), (5, 0x0000100009000000),
      (6, 0x100000000000), (7, vaRead), (8, 0x800), (9, 8)]
    let r := withX refusing [(2, vaData)]
    (∀ a ∈ [2, 3, 4, 5, 8], s.readyFor (.pldr 1 a) = true) ∧ (∀ a ∈ [6, 7, 8], s.readyFor (.pstr 1 a) = true) ∧ r.readyFor (.pldr 1 2) = true ∧
    (vloadOf s (.pldr 1 2)).any (firstBad s false · 1 0) = true ∧ (vloadOf s (.pldr 1 3)).any (firstBad s false · 1 16) = true ∧
    (vloadOf s (.pldr 1 4)).any (firstBad s false · 2 0) = true ∧ (vloadOf s (.pldr 1 5)).any (firstBad s false · 3 0) = true ∧
    (vloadOf r (.pldr 1 2)).any (firstBad r false · 4 0) = true ∧ (vstoreOf s (.pstr 1 6)).any (firstBad s true · 4 0) = true ∧
    (vstoreOf s (.pstr 1 7)).any (firstBad s true · 4 0) = true ∧ (vloadOf s (.pldr 1 8)).any (firstBad s false · 5 0) = true ∧
    (vstoreOf s (.pstr 1 8)).any (firstBad s true · 5 0) = true := by
  intro s r
  and_intros <;> decide +kernel

/-- A gather of which element 0 is in order and element 1 is misaligned. -/
theorem wit_element_misaligned : let s := withV (withX run [(2, 0x1000)]) [(3, vbuild 32 64 fun k => 6 * k)]
    s.readyFor (.vgath 1 2 3 0) = true ∧ (vloadOf s (.vgath 1 2 3 0)).any (fun f => (f.addr 0).toNat % 4 == 0 && !f.contiguous && f.act 4 && (f.addr (4 / 4 * 4)).toNat % 4 != 0 &&
      (List.range 4).all fun c => [1, 2, 3, 4, 5].all fun m => !badB s false f m c) = true := by decide +kernel


/-! ### What waits for CLOSING, and the fabric -/

/-- The data page has its home on package 1, whose region table admits it; a path leads there, or none. -/
def farData (pte : Nat) (paths : List (Nat × BitVec 64)) : State :=
  let s := withP lab fun x => { x with hbm := labTables ++ Memory.cells (0x30000 + 8 * 0x104) (natLe 8 pte), paths := paths }
  (withX s [(2, 0x0000100001040000), (3, 7)]).modPkg 1 fun x => { x with regions := (run.pkg 0).regions }

theorem wit_far_store : let s := farData 0x10001B []
    (s.readyFor (.sd 3 2 0) = true ∧ s.cur = .thread 0 0 0 ∧ storeOf (.sd 3 2 0) = some (3, 2, 0, 8)) ∧
    (match s.xlate 0 (s.tilePkg 0 0) (s.rx 2).toNat with
     | some g => g.home == 1 && g.home != s.tilePkg 0 0 && pteW g.pte && !pteSec g.pte && s.physOk g 0 && !s.isRed 0 g (s.rx 2).toNat
     | none => false) = true ∧ (s.launch 0).inCounters (s.rx 2).toNat = false := by decide +kernel

/-- The write is held, on no path, and nothing is written (R64, R340). -/
theorem test_far_store : goes (.sd 3 2 0) (farData 0x10001B []) (fun t => t.fabric.map (fun q => (q.dst, decide (q.st = .held), q.path)) == [(1, true, 0)] &&
    (t.launch 0).pends == [] && (t.lpkg 0 0).causes == []) = true := by decide +kernel

/-- A task about to end its package's part of the superstep, with a packet held there. -/
def closingLab (paths : List (Nat × BitVec 64)) : State := { farData 0x10001B paths with fabric := [{ packet .held with ra := 0x100000 }] }

theorem wit_closing : ∀ e ∈ [(([] : List (Nat × BitVec 64)), false), ([(4, pathWord)], true)], let s := closingLab e.1
    s.cur = .thread 0 0 0 ∧ s.readyFor .exit = true ∧ s.readyFor (.sync 1 0) = true ∧ (s.rx 0).toNat < 8 ∧ s.waves 0 ≤ (s.lpkg 0 (s.tilePkg 0 0)).wave + 1 ∧
    s.savingOn 0 (s.tilePkg 0 0) = false ∧ s.tasks.length = 1 ∧ (∃ q ∈ s.fabric, q.launch = 0 ∧ q.src = s.tilePkg 0 0 ∧ q.st = .held) ∧
    (s.route 0 1 0x100000).isSome = e.2 := by
  refine onList_cons ?_ (onList_cons ?_ onList_nil) <;> decide +kernel

/-- EXIT of the last task sends what was held, on its path, or votes 0x42 (R23, R338, R340). -/
theorem test_closing : goes .exit (closingLab [(4, pathWord)]) (fun t => decide ((t.lpkg 0 0).phase = .closing) && t.fabric.map (fun q => (decide (q.st = .inFlight), q.path)) == [(true, pathWord)]) = true ∧
    goes .exit (closingLab []) (fun t => (t.lpkg 0 0).causes == [0x42]) = true := by decide +kernel

/-- A page of package 1 that is a reduction page in its own table. -/
def farRed : State := (farData 0x100019 []).modPkg 1 fun x =>
  { x.setDom 0 { x.dom 0 with cfg := ((run.pkg 0).dom 0).cfg } with
    hbm := Memory.cells (0x10000 + 8 * 16) (natLe 8 0x20001) ++ Memory.cells 0x20000 (natLe 8 0x30001) ++ Memory.cells (0x30000 + 8 * 0x104) (natLe 8 0x100005) }

/-- REDADD on pages that refuse it, and one to a reduction page of package 1; GFAA on a counter page without translation. -/
theorem wit_redadd_refused : let s := withX lab [(2, vaData), (4, vaRed)]
    let c := withL s fun x => { x with desc := { x.desc with ctrVa := vaRed, ctrCount := 2 } }
    let g : Page := { home := 0, ppn := 6, pte := 0x60005 }
    s.isRed 0 { home := 0, ppn := 5, pte := 0x50003 } (s.rx 2).toNat = false ∧ s.isRed 0 g (s.rx 4).toNat = true ∧ s.readyFor (.redadd 1 4) = true ∧
    (withP s fun x => { x with regions := [] }).physOk g 0 = false ∧ (c.launch 0).inCounters (c.rx 4).toNat = true ∧
    (let f := farRed
     f.readyFor (.redadd 3 2) = true ∧ (match f.xlate 0 0 (f.rx 2).toNat with
      | some h => h.home == 1 && f.isRed 0 h (f.rx 2).toNat && !pteSec h.pte && f.physOk h 0
      | none => false) = true ∧ (f.launch 0).inCounters (f.rx 2).toNat = false) := by decide +kernel

/-- GFAA on a counter page that cannot be walked is one outside the counter pages (R81, R254). -/
theorem test_gfaa_fault : goes (.gfaa 1 2 3) (farCounter 0 []) (fun t => match (t.task t.cur).status with
    | .frozen r => r.cause == 0x03
    | _ => false) = true := by decide +kernel

/-- BST where the launch's first package is the tile's, and where it is another. -/
theorem wit_bst_home : let s := withX (farTile []) [(2, 511)]
    let u := withX (withL (farTile []) fun x => { x with pkgs := [1, 0] }) [(2, 511)]
    s.readyFor (.bst 2 1) = true ∧ (s.rx 2).toNat < 512 ∧ s.bstCount 0 0 < 64 ∧ (s.launch 0).pkgs.headD (s.tilePkg 0 0) = s.tilePkg 0 0 ∧
    u.readyFor (.bst 2 1) = true ∧ u.bstCount 0 0 < 64 ∧ (u.launch 0).pkgs.headD (u.tilePkg 0 0) ≠ u.tilePkg 0 0 := by decide +kernel

theorem wit_packet_held : (∃ q, ({ two .compute with fabric := [packet .held] } : State).fabric[0]? = some q ∧ q.st ≠ .inFlight) ∧
    noneEnded (starred .compute) ∧ noneEnded (two .compute) ∧ (∀ e ∈ (two .compute).launches, e.2.split = false) := by
  refine ⟨⟨packet .held, by decide +kernel⟩, ?_, ?_, ?_⟩
  · show ∀ e ∈ (starred .compute).launches, _
    decide +kernel
  · show ∀ e ∈ (two .compute).launches, _
    decide +kernel
  · decide +kernel

/-- A visit whose new frame carries broadcast writes of a live launch. -/
theorem wit_bcast_visit : let s := withP (starred .compute) fun x => { x with tx := [frame (.bcast 0 0 [(511, 1)])] }
    s.star.next = none ∧ s.star.sched[s.star.pos]? = some 0x400 ∧ (s.pkg 0).tx = [frame (.bcast 0 0 [(511, 1)])] ∧ Tab.find s.launches 0 ≠ none := by decide +kernel

/-- A waiting launch another of whose packages has failed too, and one whose packages are in order. -/
def waiting (also : Bool) : State :=
  let s := (two .waitSpare).modPkg 1 fun x => { x with failed := true }
  withP { s with pkgs := s.pkgs ++ [(2, { Pkg.zero with spare := true })] } fun x => { x with failed := also }

theorem wit_takeover : ∀ a ∈ [false, true], let s := waiting a
    (s.pkg 1).failed = true ∧ (s.pkg 2).spare = true ∧ (s.pkg 2).rx = [] ∧ (s.launch 0).lp ≠ [] ∧ s.launches.length = 1 ∧ 1 ∈ (s.launch 0).pkgs ∧
    (∀ y ∈ (s.launch 0).lp, y.2.phase = .waitSpare) ∧ (s.launch 0).fault = none ∧ (s.launch 0).split = false ∧ (s.launch 0).desc.replay = false ∧ (s.launch 0).holdTiles = false ∧
    (a = true → ∃ q ∈ (s.launch 0).pkgs, q ≠ 1 ∧ q ≠ 2 ∧ (s.pkg q).failed = true) ∧ (a = false → ∀ q ∈ (s.launch 0).pkgs, q ≠ 1 → q ≠ 2 ∧ (s.pkg q).failed = false) := by
  refine onList_cons ?_ (onList_cons ?_ onList_nil) <;> decide +kernel

/-- A port whose loss takes a packet on its way and leaves one that is held; an entry of another destination. -/
theorem wit_port_packets : let s := { withP (two .compute) (fun x => { x with paths := [(4, pathWord)] }) with fabric := [{ packet .inFlight with path := pathWord }, packet .held] }
    (∃ q ∈ s.fabric, q.launch = 0 ∧ q.src = 0 ∧ q.st = .inFlight ∧ pathPort q.path = 27) ∧ 0 ∈ (s.launch 0).pkgs ∧ (s.lpkg 0 0).phase = .compute ∧
    ((s.pkg 0).port 27).lost = false := by decide +kernel

/-! ### Power -/

/-- PFAIL with a launch of one package and of two, before the vote, with its vote sent, and after its commit. -/
theorem wit_pfail : (run.pkg 0).drain = .none ∧ run.launches.length = 1 ∧ 0 ∈ (run.launch 0).pkgs ∧ openOn run 0 0 ∧ (run.lpkg 0 0).causes = [] ∧
    (run.lpkg 0 0).aborts ≤ (run.launch 0).desc.limit ∧ soleLp (run.launch 0) 0 (run.lpkg 0 0) ∧
    (let s := two .compute
     openOn s 0 0 ∧ (s.lpkg 0 0).causes = [] ∧ 1 < (s.launch 0).pkgs.length ∧ (∃ e ∈ (s.launch 0).lp, e.1 ≠ 0 ∧ e.2.phase ≠ .aborting) ∧ s.launches.length = 1) ∧
    ((two .sent).lpkg 0 0).phase = .sent ∧ ((two .sent).pkg 0).tx = [] ∧ ((two .committed).lpkg 0 0).phase = .committed := by
  unfold openOn soleLp
  and_intros <;> decide +kernel

theorem wit_pfail_sent : ¬openOn (two .sent) 0 0 := by
  have h : ((two .sent).pkg 0).tx = [] := by decide +kernel
  have hp : ((two .sent).lpkg 0 0).phase = .sent := by decide +kernel
  rintro (h' | ⟨-, f, hf, -⟩)
  · rw [hp] at h'; exact absurd h' (by decide)
  · rw [h] at hf; exact nomatch hf

/-- The drain waits for a vote that is not decided. -/
theorem wit_drain_waits : (∃ e ∈ (two .sent).launches, 0 ∈ e.2.pkgs ∧ e.2.unsettled = true) ∧ (∀ e ∈ run.launches, 0 ∈ e.2.pkgs → e.2.unsettled = false) := by decide +kernel

/-- PFAIL aborts an open superstep with 0x48, uncounted (R311, R377). -/
theorem test_pfail : goes (.pfail 0) run (fun t => decide ((t.lpkg 0 0).phase = .stage) && (t.lpkg 0 0).reexec == 1 && (t.lpkg 0 0).aborts == 0 && (t.lpkg 0 0).parkReq) = true ∧
    goes (.pfail 0) (two .compute) (fun t => decide ((t.lpkg 0 0).phase = .aborting) && (t.pkg 0).tx.any fun f => match f.pay with
      | .vote _ _ _ o => o.abort && o.cause == 0x48
      | _ => false) = true := by decide +kernel

/-! ### The host's writes, and the end of a stage -/

/-- Window B on an unmapped, a PEER and a SEC page, and on a page beside the next one. -/
def pageAt (pte : Nat) : State := withP hostLab fun x => { x.setDom 0 { x.dom 0 with wbsel := 0x0000100001040000 } with hbm := labTables ++ Memory.cells (0x30000 + 8 * 0x104) (natLe 8 pte) }

theorem wit_window_refused : (∀ e ∈ [0, 0x100019, 0x60001 + 2 ^ 52], let s := pageAt e
      s.apertureVa 0 8 = 0x0000100001040008 ∧ s.aperturePage 0 0x0000100001040008 = none ∧ (s.pkg 0).inB 8 3 = true ∧ (s.apertureVa 0 8) % 65536 + 3 ≤ 65536) ∧
    isGlob (0x0000100001040008 : Nat) = true ∧ (pageAt 0).xlateDom 0 0 0x0000100001040008 = none ∧ ((pageAt 0x100019).xlateDom 0 0 0x0000100001040008).any (fun g => ptePeer g.pte) = true ∧
    ((pageAt (0x60001 + 2 ^ 52)).xlateDom 0 0 0x0000100001040008).any (fun g => pteSec g.pte) = true ∧
    (∃ g, hostLab.aperturePage 0 (hostLab.apertureVa 0 8) = some g) ∧ (hostLab.pkg 0).inB 65533 8 = true ∧ 65536 - hostLab.apertureVa 0 65533 % 65536 < 8 := by
  and_intros
  · refine onList_cons ?_ (onList_cons ?_ (onList_cons ?_ onList_nil)) <;> decide +kernel
  all_goals first | decide +kernel | exact ⟨{ home := 0, ppn := 7, pte := 0x70001 }, by decide +kernel⟩

/-- A refused write is logged (R364, R365). -/
theorem test_window_refused : goes (.windowBWrite 0 8 [1, 2, 3]) (pageAt 0) (fun t => ((t.pkg 0).dom 0).evhead == 1) = true := by decide +kernel

/-- Domains that share a die, a stack, and a plane with domain 0. -/
theorem wit_domain_shares : ∀ c ∈ [{ DomCfg.zero with plane := 1, dies := 1 }, { DomCfg.zero with plane := 1, hbmStacks := 1 }, DomCfg.zero], (lab.pkg 0).cfgOk 1 c = false ∧ (lab.pkg 0).hosts 0 = true ∧
    (((lab.pkg 0).dom 0).cfg.dies &&& c.dies ≠ 0 ∨ ((lab.pkg 0).dom 0).cfg.hbmStacks &&& c.hbmStacks ≠ 0 ∨ ((lab.pkg 0).dom 0).cfg.plane = c.plane) := by
  refine onList_cons ?_ (onList_cons ?_ (onList_cons ?_ onList_nil)) <;> decide +kernel

/-- STAGE of a launch that is due to park, and of one with every tile running; one that waits for frames, and one that waits for power. -/
theorem wit_stage_ends : let s := inPhase .stage
    let late := withL (framed .stage (.notice [])) fun x => { x with startAck := 2 }
    (∀ e ∈ (s.launch 0).lp, (s.pkg e.1).drain = .none ∧ ¬((s.pkg e.1).ack < (s.launch 0).startAck ∧ e.1 ∈ s.star.members)) ∧ (s.launch 0).fault = none ∧
    (∀ n, n < (s.launch 0).desc.ntile → (s.tile 0 n).wave = 0 ∧ (s.tile 0 n).parked = false) ∧
    (∃ e ∈ (late.launch 0).lp, (late.pkg e.1).ack < (late.launch 0).startAck ∧ e.1 ∈ late.star.members) ∧
    (∃ e ∈ ((withP s fun x => { x with drain := .asserted }).launch 0).lp, ((withP s fun x => { x with drain := .asserted }).pkg e.1).drain ≠ .none) := by decide +kernel

/-- STAGE waits for the frames before its launch (R77). -/
theorem test_stage_waits : goes (.stageEnd 0) (withL (starred .stage) fun x => { x with startAck := 2 }) (fun t => decide ((t.lpkg 0 0).phase = .stage)) = true ∧
    goes (.stageEnd 0) (starred .stage) (fun t => decide ((t.lpkg 0 0).phase = .compute)) = true := by decide +kernel

/-- Waves: a wave that leaves and one that has nothing to save; a tile that comes with a valid image and one without. -/
theorem wit_waves : (∃ n, n < (twoWaves.launch 0).desc.ntile ∧ twoWaves.tilePkg 0 n = 0 ∧ (twoWaves.tile 0 n).parked = false ∧ (twoWaves.tile 0 n).wave ≠ 1 ∧ (twoWaves.tile 0 n).retired = false) ∧
    (let s := withT twoWaves fun x => { x with retired := true }
     s.waveDone 0 = true ∧ ∀ n, n < (s.launch 0).desc.ntile → ¬((s.tile 0 n).parked = false ∧ (s.tile 0 n).wave ≠ 1 ∧ (s.tile 0 n).retired = false)) ∧
    ((waveImaged.saveTile 0 0 (waveImaged.tile 0 0).altSave).1.validImage 0 1).isSome = true ∧
    ((waveSaving.saveTile 0 0 (waveSaving.tile 0 0).altSave).1.validImage 0 1).isNone = true ∧ (waveSaving.tile 0 1).parked = true ∧ (waveSaving.tile 0 1).wave = (waveSaving.lpkg 0 0).wave := by
  and_intros
  · exact ⟨0, by decide +kernel⟩
  all_goals decide +kernel

/-- A cause that is not counted, with as many aborts behind it as the limit allows. -/
theorem wit_uncounted : let s := withY run fun y => { y with causes := [0x47], aborts := 3 }
    (s.lpkg 0 0).causes = [0x47] ∧ (s.lpkg 0 0).aborts ≤ (s.launch 0).desc.limit ∧ ¬(s.lpkg 0 0).aborts < (s.launch 0).desc.limit := by decide +kernel

theorem test_uncounted : goes (.earlyAbort 0) (withY run fun y => { y with causes := [0x47], aborts := 3 }) (fun t => (t.lpkg 0 0).aborts == 3 && (t.lpkg 0 0).parkReq) = true := by decide +kernel

theorem wit_commit_flat : ((voted false).launch 0).fault = none ∧ (∀ n, n < ((voted false).launch 0).desc.ntile → ((voted false).tile 0 n).parked = false) ∧
    (run.launch 0).split = false ∧ (run.launch 0).fault = none := by decide +kernel

/-- A die that a moving launch has been granted, before its move. -/
theorem wit_die_moving : let s := withL run fun x => { x with move := some { dies := [(0, 3)], places := [] } }
    (∃ l x, (l, x) ∈ s.launches ∧ (∃ m, x.move = some m ∧ (0, 3) ∈ m.dies) ∧ (s.launch l).atCommit = false) ∧ (∀ e ∈ s.launches, (0, 5) ∉ e.2.dies ∧ ∀ m, e.2.move = some m → (0, 5) ∉ m.dies) := by
  refine ⟨⟨0, _, List.mem_cons_self, by decide +kernel⟩, ?_⟩
  decide +kernel

theorem wit_save_pages : (∀ e ∈ [lab, withP lab fun x => { x with regions := [] }], e.xlateDom 0 0 (vaData.toNat + 4) = some { home := 0, ppn := 5, pte := 0x50003 }) ∧
    lab.physOk { home := 0, ppn := 5, pte := 0x50003 } 0 = true ∧ (withP lab fun x => { x with regions := [] }).physOk { home := 0, ppn := 5, pte := 0x50003 } 0 = false ∧
    quiet lab 0 5 := by
  and_intros
  · refine onList_cons ?_ (onList_cons ?_ onList_nil) <;> decide +kernel
  · decide +kernel
  · decide +kernel
  · exact .inr (by decide +kernel)

/-- A frozen task whose package is in ABORT: no handler serves it. -/
theorem wit_traps_gone : ((withY (frozen 8 false) fun y => { y with phase := .aborting }).lpkg 0 0).phase = .aborting ∧ ((frozen 8 false).lpkg 0 0).phase ≠ .aborting := by decide +kernel

theorem test_traps_gone : goes (.trapDelivery 0 0 0) (withY (frozen 8 false) fun y => { y with phase := .aborting }) (fun t => t.handlers == (frozen 8 false).handlers) = true := by decide +kernel

/-! ### Checks of every byte, on copies of one byte -/

/-- A descriptor of one byte. -/
def oneByte (va tm : Nat) : List Byte := natLe 8 va ++ natLe 4 tm ++ natLe 4 1 ++ natLe 4 1 ++ natLe 4 1 ++ natLe 4 1 ++ natLe 4 0

/-- The remote check of a copy of one byte by tile 0 of launch 0, as a Bool. -/
def remoteB (s : State) (kind : CopyKind) (c : CopyDesc) (n : Nat) : Bool :=
  let x := s.launch 0
  let a := c.remote.toNat
  match n, regionOf x.desc.tmSize x.desc.ntile a with
  | 0, .glob => kind == .peer
  | 0, .devInfo _ => kind != .get
  | 0, .l2p _ => kind != .get
  | 0, .peer _ _ => kind != .peer
  | 0, _ => true
  | 1, .peer u _ => (s.tile 0 u).retired
  | 2, .glob => (s.xlate 0 (s.tilePkg 0 0) a).isNone
  | 3, .glob => (s.xlate 0 (s.tilePkg 0 0) a).any fun g =>
      pteSec g.pte || !s.physOk g x.dom || (kind == .put && (x.inCounters a || !pteW g.pte || s.isRed 0 g a))
  | _, _ => false

/-- The check of its TM side. -/
def tmB (s : State) (c : CopyDesc) (may : Nat → Owner → Bool) (n : Nat) : Bool :=
  let size := (s.launch 0).desc.tmSize
  (n == 4 && decide (size ≤ c.tm)) || (n == 5 && decide (c.tm < size) && !may (c.tm / 2048) ((s.tile 0 0).owner c.tm))

theorem one_pair {c : CopyDesc} (h : c.rows = 1 ∧ c.bytes = 1) (P : Nat → Nat → Prop) : (∃ r k, r < c.rows ∧ k < c.bytes ∧ P r k) ↔ P 0 0 := by
  rw [h.1, h.2]
  exact ⟨fun ⟨r, k, hr, hk, hp⟩ => by obtain rfl : r = 0 := by omega
                                      obtain rfl : k = 0 := by omega
                                      exact hp, fun hp => ⟨0, 0, by omega, by omega, hp⟩⟩

theorem remote_iff {s : State} {kind : CopyKind} {c : CopyDesc} {n a : Nat} (h : c.rows = 1 ∧ c.bytes = 1) :
    remoteFails s 0 0 kind c n a ↔ a = c.remote.toNat ∧ remoteB s kind c n = true := by
  have hl := c.remote.isLt
  unfold remoteFails remoteB
  dsimp only
  rw [one_pair h]
  simp only [Nat.zero_mul, Nat.add_zero, Nat.mod_eq_of_lt hl]
  constructor
  · rintro ⟨rfl, h⟩
    refine ⟨rfl, ?_⟩
    revert h
    split <;> simp_all [Option.any_eq_true, or_assoc]
  · rintro ⟨rfl, h⟩
    refine ⟨rfl, ?_⟩
    revert h
    split <;> simp_all [Option.any_eq_true, or_assoc]

theorem tm_iff {s : State} {c : CopyDesc} {may : Nat → Owner → Prop} {mayB : Nat → Owner → Bool} {n o : Nat} (h : c.rows = 1 ∧ c.bytes = 1)
    (hm : ∀ b w, may b w ↔ mayB b w = true) : tmSideFails s 0 0 c may n o ↔ o = c.tm ∧ tmB s c mayB n = true := by
  unfold tmSideFails tmB
  rw [one_pair h]
  simp only [Nat.zero_mul, Nat.add_zero]
  constructor
  · rintro ⟨rfl, h⟩; exact ⟨rfl, by simpa [hm, and_assoc] using h⟩
  · rintro ⟨rfl, h⟩; exact ⟨rfl, by simpa [hm, and_assoc] using h⟩

theorem remote_low {s : State} {kind : CopyKind} {c : CopyDesc} {n : Nat} (h : remoteB s kind c n = true) : n < 4 := by
  match n with
  | 0 | 1 | 2 | 3 => omega
  | n + 4 => exact absurd h (by simp [remoteB])

theorem tm_high {s : State} {c : CopyDesc} {may : Nat → Owner → Bool} {n : Nat} (h : tmB s c may n = true) : n = 4 ∨ n = 5 := by
  simp only [tmB, Bool.or_eq_true, Bool.and_eq_true, beq_iff_eq] at h
  omega

/-- Check `n` is the first that fails. -/
def firstB (bad : Nat → Bool) (n : Nat) : Bool := bad n && (List.range n).all fun m => !bad m

theorem firstB_spec {bad : Nat → Bool} {n : Nat} (h : firstB bad n = true) : bad n = true ∧ ∀ m, bad m = true → n ≤ m := by
  simp only [firstB, Bool.and_eq_true, List.all_eq_true, List.mem_range, Bool.not_eq_true'] at h
  refine ⟨h.1, fun m hm => ?_⟩
  rcases Nat.lt_or_ge m n with hlt | hge
  · exact absurd hm (by simp [h.2 m hlt])
  · exact hge

theorem copy_first {s : State} {kind : CopyKind} {c : CopyDesc} {may : Nat → Owner → Prop} {mayB : Nat → Owner → Bool} (h : c.rows = 1 ∧ c.bytes = 1)
    (hm : ∀ b w, may b w ↔ mayB b w = true) (n : Nat) (hb : firstB (fun m => remoteB s kind c m || tmB s c mayB m) n = true) :
    FirstFails (fun n a => remoteFails s 0 0 kind c n a ∨ tmSideFails s 0 0 c may n a) n (if n < 4 then c.remote.toNat else c.tm) := by
  obtain ⟨hn, hall⟩ := firstB_spec hb
  constructor
  · dsimp only
    rw [remote_iff h, tm_iff h hm]
    rcases Bool.or_eq_true_iff.mp hn with h1 | h1
    · exact .inl ⟨if_pos (remote_low h1), h1⟩
    · exact .inr ⟨if_neg (by have := tm_high h1; omega), h1⟩
  · intro m b hb
    rw [remote_iff h, tm_iff h hm] at hb
    rcases hb with ⟨rfl, h1⟩ | ⟨rfl, h1⟩
    · have := hall m (by simp [h1])
      have := remote_low h1
      rcases Nat.lt_or_ge n m with h | h
      · exact .inl h
      · exact .inr ⟨by omega, Nat.le_of_eq (if_pos (by omega))⟩
    · have := hall m (by simp [h1])
      have := tm_high h1
      rcases Nat.lt_or_ge n m with h | h
      · exact .inl h
      · exact .inr ⟨by omega, Nat.le_of_eq (if_neg (by omega))⟩

theorem copy_none {s : State} {kind : CopyKind} {c : CopyDesc} {may : Nat → Owner → Prop} {mayB : Nat → Owner → Bool} (h : c.rows = 1 ∧ c.bytes = 1)
    (hm : ∀ b w, may b w ↔ mayB b w = true) (hb : ((List.range 6).all fun m => !remoteB s kind c m && !tmB s c mayB m) = true) :
    ∀ n a, ¬(remoteFails s 0 0 kind c n a ∨ tmSideFails s 0 0 c may n a) := by
  intro n a hn
  rw [remote_iff h, tm_iff h hm] at hn
  simp only [List.all_eq_true, List.mem_range, Bool.and_eq_true, Bool.not_eq_true'] at hb
  rcases hn with ⟨-, h1⟩ | ⟨-, h1⟩
  · exact absurd h1 (by simp [(hb n (by have := remote_low h1; omega)).1])
  · exact absurd h1 (by simp [(hb n (by have := tm_high h1; omega)).2])

/-- Who may use a block of a copy's TM side. -/
def mayCopy (kind : CopyKind) (_ : Nat) (o : Owner) : Bool := o == .own 0 || o == .engine 0 || (kind == .put && o == .ro)

theorem may_copy (kind : CopyKind) (b : Nat) (o : Owner) : (o = .own 0 ∨ o = .engine 0 ∨ kind = .put ∧ o = .ro) ↔ mayCopy kind b o = true := by
  simp [mayCopy, or_assoc]

/-- A machine with a descriptor of one byte at offset 0x1000, whose tile has retired and whose block 3 is read-only. -/
def oneCopy (va tm : Nat) : State :=
  withX (withT lab fun x => { x with retired := true, tm := Memory.cells 0x1000 (oneByte va tm), ownCur := x.ownCur.set 3 .ro }) [(2, 0x1000)]

/-- A copy on which each check of R234 is the first to fail, and one that passes; the tests before them. -/
theorem wit_copy_checks : (∀ e ∈ [(CopyKind.get, 0x10, 0x2000, 0), (.put, 0x100000000000, 0x2000, 0), (.peer, 0x10000000000, 0x2000, 1), (.get, 0x0000100009000000, 0x2000, 2), (.put, vaRead.toNat, 0x2000, 3),
      (.get, vaData.toNat, 0x1E0000, 4), (.get, vaData.toNat, 0x1800, 5)], let s := oneCopy e.2.1 e.2.2.1
      let c := copyAt fun k => s.ownByte 0 0 0 (0x1000 + k)
      FirstFails (fun n a => remoteFails s 0 0 e.1 c n a ∨ tmSideFails s 0 0 c (fun _ o => o = .own 0 ∨ o = .engine 0 ∨ e.1 = .put ∧ o = .ro) n a) e.2.2.2 (if e.2.2.2 < 4 then c.remote.toNat else c.tm)) ∧
    (∀ e ∈ [(CopyKind.get, vaData.toNat, 0x2000), (.put, vaData.toNat, 0x1800)], let s := oneCopy e.2.1 e.2.2
      let c := copyAt fun k => s.ownByte 0 0 0 (0x1000 + k)
      ∀ n a, ¬(remoteFails s 0 0 e.1 c n a ∨ tmSideFails s 0 0 c (fun _ o => o = .own 0 ∨ o = .engine 0 ∨ e.1 = .put ∧ o = .ro) n a)) := by
  constructor
  · refine onList_cons ?_ (onList_cons ?_ (onList_cons ?_ (onList_cons ?_ (onList_cons ?_ (onList_cons ?_ (onList_cons ?_ onList_nil)))))) <;>
      exact copy_first (by decide +kernel) (may_copy _) _ (by decide +kernel)
  · refine onList_cons ?_ (onList_cons ?_ onList_nil) <;> exact copy_none (by decide +kernel) (may_copy _) (by decide +kernel)

/-- Every test that comes before those of the bytes: a descriptor that meets R233, one with no rows, one in an engine's block; a full tile. -/
theorem wit_copy_tests : (∀ e ∈ [(Instr.cpget 1 2, CopyKind.get), (.cpput 0 2, .put), (.cppeer 1 2, .peer)], let s := oneCopy vaData.toNat 0x2000
      s.cur = .thread 0 0 0 ∧ s.readyFor e.1 = true ∧ (copyOf e.1).any (fun c => c.1 == e.2) = true ∧ (s.task s.cur).mreq = [] ∧ (s.rx 2).toNat % 32 = 0 ∧
      (s.rx 2).toNat + 32 ≤ (s.launch 0).desc.tmSize ∧ ((s.tile 0 0).owner 0x1000).isEngine = false ∧ copyFits (fun k => s.ownByte 0 0 0 (0x1000 + k)) (e.2 = .get) ∧
      (s.launch 0).desc.ctrCount = 0 ∧ (s.tile 0 0).copies.length < 256) ∧
    (let s := oneCopy vaData.toNat 0x2000
     ¬copyFits (fun k => s.ownByte 0 0 0 (0x3000 + k)) True) ∧
    engineAt (withT lab fun x => { x with ownCur := x.ownCur.set 2 (.engine 0) }) 0 0 0x1000 := by
  and_intros
  · refine onList_cons ?_ (onList_cons ?_ (onList_cons ?_ onList_nil)) <;> (unfold copyFits; decide +kernel)
  · unfold copyFits; decide +kernel
  · exact ⟨0, .inl (by decide +kernel)⟩

theorem not_engine {s : State} {l t o : Nat} (h : ((s.tile l t).owner o).isEngine = false) : ¬engineAt s l t o := by
  rintro ⟨i, h' | h'⟩ <;> rw [h'] at h <;> simp [Owner.isEngine] at h

/-! ### Fetch lists of one entry -/

/-- A block that a task's queued GIVE has given away. -/
def givenB (s : State) (b : Nat) : Bool := (s.launch 0).pends.any fun g => g.tile == 0 && g.task == 0 && match g.eff with
  | .give b' _ => b' == b
  | _ => false

/-- Who may use a block as a fetch target. -/
def mayFetch (s : State) (b : Nat) (w : Owner) : Bool := (w == .own 0 || w == .engine 0) && !givenB s b

theorem given_iff (s : State) (b : Nat) : (∃ g ∈ (s.launch 0).pends, g.tile = 0 ∧ g.task = 0 ∧ ∃ d, g.eff = .give b d) ↔ givenB s b = true := by
  unfold givenB
  rw [List.any_eq_true]
  constructor
  · rintro ⟨g, hg, h1, h2, d, h3⟩
    exact ⟨g, hg, by simp [h1, h2, h3]⟩
  · rintro ⟨g, hg, h⟩
    simp only [Bool.and_eq_true, beq_iff_eq] at h
    obtain ⟨⟨h1, h2⟩, h3⟩ := h
    refine ⟨g, hg, h1, h2, ?_⟩
    split at h3
    · rename_i b' d hd
      exact ⟨d, by rw [hd, beq_iff_eq.mp h3]⟩
    · exact absurd h3 (by decide)

theorem may_fetch (s : State) (b : Nat) (w : Owner) :
    ((w = .own 0 ∨ w = .engine 0) ∧ ¬∃ g ∈ (s.launch 0).pends, g.tile = 0 ∧ g.task = 0 ∧ ∃ d, g.eff = .give b d) ↔ mayFetch s b w = true := by
  rw [given_iff]; simp [mayFetch]

theorem remote_first {s : State} {kind : CopyKind} {c : CopyDesc} (h : c.rows = 1 ∧ c.bytes = 1) (n : Nat) (hb : firstB (remoteB s kind c) n = true) :
    FirstFails (remoteFails s 0 0 kind c) n c.remote.toNat := by
  obtain ⟨hn, hall⟩ := firstB_spec hb
  refine ⟨(remote_iff h).mpr ⟨rfl, hn⟩, fun m b hb => ?_⟩
  obtain ⟨rfl, h1⟩ := (remote_iff h).mp hb
  have := hall m h1
  omega

theorem tm_first {s : State} {c : CopyDesc} {may : Nat → Owner → Prop} {mayB : Nat → Owner → Bool} (h : c.rows = 1 ∧ c.bytes = 1)
    (hm : ∀ b w, may b w ↔ mayB b w = true) (n : Nat) (hb : firstB (tmB s c mayB) n = true) : FirstFails (tmSideFails s 0 0 c may) n c.tm := by
  obtain ⟨hn, hall⟩ := firstB_spec hb
  refine ⟨(tm_iff h hm).mpr ⟨rfl, hn⟩, fun m b hb => ?_⟩
  obtain ⟨rfl, h1⟩ := (tm_iff h hm).mp hb
  have := hall m h1
  omega

/-- A machine with a fetch list of one entry at 0x800; block 3 is read-only and the task has given block 5 away. -/
def oneList (va tm : Nat) : State :=
  let s := withT lab fun x => { x with tm := Memory.cells 0x800 (natLe 4 1) ++ Memory.cells 0x820 (oneByte va tm), ownCur := x.ownCur.set 3 .ro }
  withX (withL s fun x => { x with pends := [{ tile := 0, task := 0, seq := 0, eff := .give 5 0 }] }) [(1, 0x800), (2, 1), (3, 0x1DFFE0), (4, 0x1E0000)]

/-- Lists whose entry fails a check of the remote side, of the TM side, and none; their tests before those. -/
theorem wit_flist_checks :
    (∀ e ∈ [(0x10, 0), (0x0000100009000000, 2)], let s := oneList e.1 0x2000
      let c := copyAt fun k => s.ownByte 0 0 0 (0x820 + k)
      FirstFails (remoteFails s 0 0 .get c) e.2 c.remote.toNat) ∧
    (∀ e ∈ [(0x1E0000, 4), (0x1800, 5), (0x2800, 5)], let s := oneList vaData.toNat e.1
      let c := copyAt fun k => s.ownByte 0 0 0 (0x820 + k)
      FirstFails (tmSideFails s 0 0 c fun b w => (w = .own 0 ∨ w = .engine 0) ∧ ¬∃ g ∈ (s.launch 0).pends, g.tile = 0 ∧ g.task = 0 ∧ ∃ d, g.eff = .give b d) e.2 c.tm) ∧
    (let s := oneList vaData.toNat 0x2000
     let c := copyAt fun k => s.ownByte 0 0 0 (0x820 + k)
     ((List.range 6).all fun m => !remoteB s .get c m && !tmB s c (mayFetch s) m) = true ∧ leBytes 4 (fun k => s.ownByte 0 0 0 (0x800 + k)) = 1 ∧ c.rows = 1 ∧ c.bytes = 1 ∧
     copyFits (fun k => s.ownByte 0 0 0 (0x820 + k)) True ∧ s.readyFor (.flist 1) = true ∧ (s.task s.cur).mreq = [] ∧
     (∀ k, k < 64 → ((s.tile 0 0).owner (0x800 + k)).isEngine = false) ∧ (s.rx 2).toNat % 32 ≠ 0 ∧
     (s.rx 4).toNat % 32 = 0 ∧ (s.launch 0).desc.tmSize < (s.rx 4).toNat + 32) ∧
    (let s := withT (oneList 0 0) fun x => { x with tm := Memory.cells 0x1DFFE0 (natLe 4 1) }
     (s.rx 3).toNat % 32 = 0 ∧ (s.rx 3).toNat + 32 ≤ (s.launch 0).desc.tmSize ∧ leBytes 4 (fun k => s.ownByte 0 0 0 (0x1DFFE0 + k)) = 1) ∧
    engineAt (withT (oneList 0 0) fun x => { x with ownCur := x.ownCur.set 1 (.engine 0) }) 0 0 0x800 ∧
    (let s := withT (oneList 0 0) fun x => { x with tm := Memory.cells 0x800 (natLe 4 1) }
     ¬copyFits (fun k => s.ownByte 0 0 0 (0x820 + k)) True) := by
  and_intros
  · refine onList_cons ?_ (onList_cons ?_ onList_nil) <;> exact remote_first (by decide +kernel) _ (by decide +kernel)
  · refine onList_cons ?_ (onList_cons ?_ (onList_cons ?_ onList_nil)) <;> exact tm_first (by decide +kernel) (may_fetch _) _ (by decide +kernel)
  all_goals first | exact ⟨0, .inl (by decide +kernel)⟩ | (unfold copyFits; decide +kernel) | decide +kernel

/-! ### Payloads and tables in own TM -/

/-- The checks of bytes that an instruction reads, as a Bool. -/
def readB (s : State) (n o : Nat) : Bool :=
  let size := (s.launch 0).desc.tmSize
  (n == 0 && decide (size ≤ o)) || (n == 1 && decide (o < size) && ((s.tile 0 0).owner o).isEngine)

theorem engine_iff {s : State} {o : Nat} : engineAt s 0 0 o ↔ ((s.tile 0 0).owner o).isEngine = true := by
  unfold engineAt Owner.isEngine
  split <;> simp_all

theorem read_iff {s : State} {P : Nat → Prop} {n o : Nat} : readFails s 0 0 P n o ↔ P o ∧ readB s n o = true := by
  unfold readFails readB
  rw [engine_iff]
  simp [and_assoc]

/-- Byte `o` of `n` from `lo` on is the lowest at which the first failing check fails. -/
def readFirst (s : State) (lo n c o : Nat) : Bool :=
  decide (lo ≤ o) && decide (o < lo + n) && readB s c o && (List.range n).all fun k => (c == 0 || !readB s 0 (lo + k)) && (!readB s c (lo + k) || decide (o ≤ lo + k))

theorem read_first {s : State} {lo n c o : Nat} (h : readFirst s lo n c o = true) : FirstFails (readFails s 0 0 fun o => lo ≤ o ∧ o < lo + n) c o := by
  simp only [readFirst, Bool.and_eq_true, decide_eq_true_eq, List.all_eq_true, List.mem_range, Bool.or_eq_true, beq_iff_eq, Bool.not_eq_true'] at h
  obtain ⟨⟨⟨h1, h2⟩, h3⟩, h4⟩ := h
  refine ⟨read_iff.mpr ⟨⟨h1, h2⟩, h3⟩, fun m b hb => ?_⟩
  obtain ⟨⟨hb1, hb2⟩, hb3⟩ := read_iff.mp hb
  have hk := h4 (b - lo) (by omega)
  rw [Nat.add_sub_cancel' hb1] at hk
  have low : ∀ k o, readB s k o = true → k = 0 ∨ k = 1 := by
    intro k o h
    simp only [readB, Bool.or_eq_true, Bool.and_eq_true, beq_iff_eq] at h
    omega
  rcases low c o h3 with rfl | rfl <;> rcases low m b hb3 with rfl | rfl
  · exact .inr ⟨rfl, (hk.2.resolve_left (by simp [hb3]))⟩
  · exact .inl (by omega)
  · exact absurd hb3 (by simp [hk.1.resolve_left (by omega)])
  · exact .inr ⟨rfl, (hk.2.resolve_left (by simp [hb3]))⟩

theorem read_none {s : State} {lo n : Nat} (h : ((List.range n).all fun k => !readB s 0 (lo + k) && !readB s 1 (lo + k)) = true) :
    ∀ c o, ¬readFails s 0 0 (fun o => lo ≤ o ∧ o < lo + n) c o := by
  intro c o hf
  obtain ⟨⟨h1, h2⟩, h3⟩ := read_iff.mp hf
  simp only [List.all_eq_true, List.mem_range, Bool.and_eq_true, Bool.not_eq_true'] at h
  have hk := h (o - lo) (by omega)
  rw [Nat.add_sub_cancel' h1] at hk
  have : c = 0 ∨ c = 1 := by
    simp only [readB, Bool.or_eq_true, Bool.and_eq_true, beq_iff_eq] at h3
    omega
  rcases this with rfl | rfl
  · exact absurd h3 (by simp [hk.1])
  · exact absurd h3 (by simp [hk.2])

/-- A payload of 32 bytes of which the last 16 lie past own TM, one whose last 16 lie in an engine's block, one that no check stops; the same of
a table row of 128 bytes. -/
theorem wit_read_checks : let s := withT lab fun x => { x with ownCur := x.ownCur.set 2 (.engine 0) }
    FirstFails (readFails s 0 0 fun o => 0x1DFFF0 ≤ o ∧ o < 0x1DFFF0 + 32) 0 0x1E0000 ∧ FirstFails (readFails s 0 0 fun o => 0xFF0 ≤ o ∧ o < 0xFF0 + 32) 1 0x1000 ∧
    (∀ c o, ¬readFails s 0 0 (fun o => 0x800 ≤ o ∧ o < 0x800 + 32) c o) ∧
    FirstFails (readFails s 0 0 fun o => 0x1DFFF0 ≤ o ∧ o < 0x1DFFF0 + 128 * 1) 0 0x1E0000 ∧ FirstFails (readFails s 0 0 fun o => 0xFF0 ≤ o ∧ o < 0xFF0 + 128 * 1) 1 0x1000 ∧
    (∀ c o, ¬readFails s 0 0 (fun o => 0x800 ≤ o ∧ o < 0x800 + 128 * 1) c o) := by
  refine ⟨read_first (by decide +kernel), read_first (by decide +kernel), read_none (by decide +kernel), read_first (by decide +kernel), read_first (by decide +kernel),
    read_none (by decide +kernel)⟩

/-! ### Copies that complete -/

/-- Copies of the tile: one of another task before a task's, and one of the same task with a later tag behind it; or an earlier one on its block. -/
theorem wit_copy_queue : (∀ e ∈ [([{ copyCp with task := 1 }], [{ copyCp with tag := 1 }]), ([{ copyCp with tag := 7, ring := [(0, 1)] }], [])],
      let s := withT lab fun x => { x with copies := e.1 ++ copyCp :: e.2 }
      copyCp.task < 4 ∧ (s.tile 0 0).copies = e.1 ++ copyCp :: e.2 ∧ copyCp.ring = [] ∧ (∀ d ∈ e.1 ++ copyCp :: e.2, 1 ≤ d.desc.bytes) ∧
      ∀ d ∈ e.1 ++ e.2, ¬(d.task = copyCp.task ∧ d.tag = copyCp.tag)) ∧
    (¬∃ d ∈ [{ copyCp with task := 1 }], d.task = copyCp.task ∧ ∃ b, CopyOn d.desc b ∧ CopyOn copyCp.desc b) ∧
    ∃ d ∈ [{ copyCp with tag := 7, ring := [(0, 1)] }], d.task = copyCp.task ∧ ∃ b, CopyOn d.desc b ∧ CopyOn copyCp.desc b := by
  and_intros
  · refine onList_cons ?_ (onList_cons ?_ onList_nil) <;> decide +kernel
  · rintro ⟨d, hd, h, -⟩
    obtain rfl := List.mem_singleton.mp hd
    exact absurd h (by decide +kernel)
  · exact ⟨_, List.mem_cons_self, by decide +kernel, 4, ⟨0, 0, by decide +kernel, by decide +kernel, by decide +kernel⟩, ⟨0, 0, by decide +kernel, by decide +kernel, by decide +kernel⟩⟩

/-- A CPPUT of one byte to a page homed here, to one of package 1 before CLOSING, and in CLOSING on a path. -/
theorem wit_put_complete : let put := fun va => { copyCp with kind := .put, desc := copyDescOf (oneByte va 0x2000) }
    let far := (0x0000100001040000 : Nat)
    (let s := lab; ∃ g, s.xlate 0 (s.tilePkg 0 0) vaData.toNat = some g ∧ g.home = s.tilePkg 0 0 ∧ ∃ h ∈ (s.launch 0).shadows, h.home = s.tilePkg 0 0 ∧ h.vpn = vaData.toNat / 65536) ∧
    (let s := farData 0x10001B []; (s.lpkg 0 0).phase ≠ .closing ∧ ∃ g, s.xlate 0 (s.tilePkg 0 0) far = some g ∧ g.home ≠ s.tilePkg 0 0) ∧
    (let s := withY (farData 0x10001B [(4, pathWord)]) fun y => { y with phase := .closing }
     (s.lpkg 0 0).phase = .closing ∧ ∃ g, s.xlate 0 (s.tilePkg 0 0) far = some g ∧ g.home ≠ s.tilePkg 0 0 ∧ s.route 0 g.home (BitVec.ofNat 64 ((g.ppn * 65536 + far % 65536) / 64 * 64)) ≠ none) ∧
    (∀ va ∈ [vaData.toNat, far], (put va).desc.rows = 1 ∧ (put va).desc.bytes = 1 ∧ (put va).desc.remote.toNat = va ∧ isGlob va = true) := by
  dsimp only
  and_intros
  · exact ⟨{ home := 0, ppn := 5, pte := 0x50003 }, by decide +kernel, by decide +kernel, by decide +kernel⟩
  · decide +kernel
  · exact ⟨{ home := 1, ppn := 16, pte := 0x10001B }, by decide +kernel, by decide +kernel⟩
  · decide +kernel
  · exact ⟨{ home := 1, ppn := 16, pte := 0x10001B }, by decide +kernel, by decide +kernel, by decide +kernel⟩
  · refine onList_cons ?_ (onList_cons ?_ onList_nil) <;> decide +kernel

/-- CPPUT leaves a shadow write, a held packet, and a packet on its way; a transposed CPGET takes byte 0 of row 1 from byte 2 of row 0 (R61, R64, R340). -/
theorem test_put : (let c := fun va => { copyCp with kind := CopyKind.put, desc := copyDescOf (oneByte va 0x2000) }
     let put := fun (s : State) va => withT s fun x => { x with copies := [c va] }
     goes (.copyComplete 0 0 0 0) (put lab vaData.toNat) (fun t => (t.launch 0).pends.map (·.eff) == [.gWrite vaData [0]] && t.fabric == []) = true ∧
     goes (.copyComplete 0 0 0 0) (put (farData 0x10001B []) 0x0000100001040000) (fun t => t.fabric.map (fun q => (q.dst, decide (q.st = .held), q.ra)) == [(1, true, 0x100000)]) = true ∧
     goes (.copyComplete 0 0 0 0) (put (withY (farData 0x10001B [(4, pathWord)]) fun y => { y with phase := .closing }) 0x0000100001040000) (fun t =>
       t.fabric.map (fun q => (decide (q.st = .inFlight), q.path)) == [(true, pathWord)]) = true) ∧
    copySource { copyCp.desc with layout := 1 } 1 0 = (0, 2) ∧ copySource { copyCp.desc with layout := 2 } 1 0 = (0, 1) := by decide +kernel

/-! ### Delta pools -/

/-- A launch without pool whose queue holds one line of tile 0, and one with nothing queued. -/
theorem wit_pool : charge [{ tile := 0, task := 0, seq := 0, eff := .tmWrite 0 true 8 [1, 2] }] 0 64 ∧ openOn run 0 0 ∧
    ((withL run fun x => { x with desc := { x.desc with pool := 0 } }).launch 0).desc.pool * 0x20000 < 64 ∧
    ¬∃ c, charge [] 0 c ∧ (run.launch 0).desc.pool * 0x20000 < c := by
  refine ⟨⟨[0], by decide, fun j => ?_, by decide⟩, .inl (by decide +kernel), by decide +kernel, ?_⟩
  · constructor
    · rintro h
      obtain rfl := List.mem_singleton.mp h
      exact ⟨_, List.mem_cons_self, true, 8, [1, 2], rfl, by decide, by decide⟩
    · rintro ⟨e, he, own, a, bs, h, h1, h2⟩
      obtain rfl := List.mem_singleton.mp he
      cases h
      simp only [List.length_cons, List.length_nil] at h2
      exact List.mem_singleton.mpr (by omega)
  · rintro ⟨c, ⟨lines, -, hl, hc⟩, h⟩
    have : lines = [] := List.eq_nil_iff_forall_not_mem.mpr fun j hj => by
      obtain ⟨e, he, -⟩ := (hl j).mp hj
      exact nomatch he
    subst this
    simp only [List.length_nil, List.map_nil, List.sum_nil] at hc
    omega

/-- A store past the pool raises 0x43 (R52, R170). -/
theorem test_pool : goes (.sd 1 2 0) (withX (withL run fun x => { x with desc := { x.desc with pool := 0 } }) [(2, 8)]) (fun t => (t.lpkg 0 0).causes == [0x43]) = true := by
  decide +kernel

/-! ### Matrix operands -/

theorem rows_of {w0 w1 : Word} {n len : Nat} (base : baseOf w0 = 0) (pitch : rpitchOf w0 = len) (pad : w1.toNat / 2 ^ 21 % 8 = 0) (o : Nat) :
    inRows w0 w1 n len o ↔ o < n * len := by
  unfold inRows
  simp only [base, pitch, pad, Nat.mul_zero, Nat.zero_mod, Nat.add_zero, Nat.zero_add]
  constructor
  · rintro ⟨i, hi, h1, h2⟩
    have : (i + 1) * len ≤ n * len := Nat.mul_le_mul_right _ hi
    rw [Nat.add_mul] at this
    omega
  · intro h
    have hl : 0 < len := by
      rcases Nat.eq_zero_or_pos len with rfl | h'
      · omega
      · exact h'
    refine ⟨o / len, (Nat.div_lt_iff_lt_mul hl).mpr h, Nat.div_mul_le_self o len, ?_⟩
    have := Nat.lt_mul_div_succ o hl
    rw [Nat.mul_add, Nat.mul_one, Nat.mul_comm] at this
    exact this

theorem foot_of {P : Nat → Prop} {n : Nat} (hn : 0 < n) (h : ∀ o, P o ↔ o < n) : FootOf P { lo := 0, hi := n - 1 } :=
  ⟨(h 0).mpr hn, (h _).mpr (by show n - 1 < n; omega), fun o ho => ⟨Nat.zero_le o, by have := (h o).mp ho; show o ≤ n - 1; omega⟩⟩

/-- The A operand of the machine's dense pair lies in its memory and in no engine's block; its descriptor and format meet R94 and R260, and those
of the other pairs do not. -/
theorem wit_matrix_operands : let s := mlab
    let A := s.dpair 2
    s.readyFor (.mma 0 2 4) = true ∧ (s.task s.cur).mreq = [] ∧ FootOf (operandByte (widthOf A.fmt) A.w0 A.w1) { lo := 0, hi := 4095 } ∧ 4095 < s.curLaunch.desc.tmSize ∧
    (∀ o, operandByte (widthOf A.fmt) A.w0 A.w1 o → ¬engineAt s 0 0 o) ∧ FootOf (destByte (widthOf A.fmt) A.w0 A.w1) { lo := 0, hi := 4095 } ∧
    (∀ o, destByte (widthOf A.fmt) A.w0 A.w1 o → (s.tile 0 0).owner o = .own 0) ∧
    descFits false false A.w0 A.w1 (widthOf A.fmt) ∧ descFits false true A.w0 A.w1 (widthOf A.fmt) ∧ fmtFits A.fmt ∧ widthOf A.fmt = 8 ∧ scaleMode A.w1 = 0 ∧
    descFits false false (s.dpair 4).w0 (s.dpair 4).w1 (widthOf (s.dpair 4).fmt) ∧ fmtFits (s.dpair 4).fmt ∧
    descFits true false (s.dpair 6).w0 (s.dpair 6).w1 (widthOf (s.dpair 6).fmt) ∧ ¬descFits false false (s.dpair 8).w0 (s.dpair 8).w1 (widthOf (s.dpair 8).fmt) ∧
    ¬fmtFits (s.dpair 10).fmt := by
  intro s A
  have op : ∀ o, operandByte (widthOf A.fmt) A.w0 A.w1 o ↔ o < 4096 := fun o => by
    have hw : widthOf A.fmt = 8 := by decide +kernel
    have h1 : A.w1.getLsbD 24 = false := by decide +kernel
    have h2 : A.w1.getLsbD 25 = false := by decide +kernel
    have h3 : scaleMode A.w1 = 0 := by decide +kernel
    simp only [operandByte, hw, h1, h2, h3]
    exact rows_of (by decide +kernel) (by decide +kernel) (by decide +kernel) o
  have dst : ∀ o, destByte (widthOf A.fmt) A.w0 A.w1 o ↔ o < 4096 := fun o => by
    have hw : widthOf A.fmt = 8 := by decide +kernel
    have h3 : scaleMode A.w1 = 0 := by decide +kernel
    simp only [destByte, hw, h3]
    exact rows_of (by decide +kernel) (by decide +kernel) (by decide +kernel) o
  have own : ∀ b, b < 2 → (s.tile 0 0).ownCur.getD b .ro = .own 0 := by decide +kernel
  have mine : ∀ o, o < 4096 → (s.tile 0 0).owner o = .own 0 := fun o ho => own _ (by omega)
  refine ⟨by decide +kernel, by decide +kernel, foot_of (by decide) op, by decide +kernel, fun o ho => ?_, foot_of (by decide) dst, fun o ho => mine o ((dst o).mp ho), ?_⟩
  · exact not_engine (by rw [mine o ((op o).mp ho)]; rfl)
  · unfold descFits fmtFits
    dsimp only
    and_intros
    all_goals decide +kernel

/-- Rows that end past own TM; an engine's block at an operand's first byte; a format of the 32-bit class; a scaled operand of the 16-bit class. -/
theorem wit_matrix_edges : let w0 : Word := 0xFFFF00000000
    let e := withT mlab fun x => { x with ownCur := x.ownCur.set 0 (.engine 0) }
    FootOf (operandByte 8 w0 0) { lo := 0, hi := 63 * 65535 + 63 } ∧ mlab.curLaunch.desc.tmSize ≤ 63 * 65535 + 63 ∧ descFits false false w0 0 8 ∧
    engineAt e 0 0 0 ∧ operandByte 8 (64 * 2 ^ 32) 0 0 ∧ ¬((e.tile 0 0).owner 0 = .own 0) ∧ widthOf 1 = 32 ∧ fmtFits 1 ∧ widthOf 2 = 16 ∧ scaleMode (2 ^ 19) = 1 := by
  and_intros
  · exact ⟨0, by decide, by decide +kernel, by decide +kernel⟩
  · exact ⟨63, by decide, by decide +kernel, by decide +kernel⟩
  · intro o h
    simp only [operandByte] at h
    rw [if_neg (by decide), if_neg (by decide)] at h
    obtain ⟨i, hi, h1, h2⟩ := h
    have e1 : baseOf (0xFFFF00000000 : Word) = 0 := by decide
    have e2 : rpitchOf (0xFFFF00000000 : Word) = 65535 := by decide
    have e3 : (0 : Word).toNat / 2 ^ 21 % 8 = 0 := by decide
    have e4 : scaleMode 0 = 0 := by decide
    simp only [e1, e2, e3, e4, Nat.mul_zero, Nat.zero_mod, Nat.add_zero, Nat.zero_add] at h1 h2
    refine ⟨Nat.zero_le o, ?_⟩
    show o ≤ 63 * 65535 + 63
    have : i * 65535 ≤ 63 * 65535 := Nat.mul_le_mul_right _ (by omega)
    simp at h2
    omega
  · decide +kernel
  all_goals first | decide +kernel | exact ⟨0, .inl (by decide +kernel)⟩ | exact ⟨0, by decide, by decide +kernel, by decide +kernel⟩ | (unfold fmtFits; decide +kernel)

/-! ### Launches of several packages -/

theorem wit_frames_gone : noneWaiting (starred .compute) ∧ noneWaiting (framed .sent (.pawn none)) ∧ noFrames (two .compute) 0 := by
  refine ⟨?_, ?_, ?_⟩
  · show ∀ e ∈ (starred .compute).launches, _
    decide +kernel
  · show ∀ e ∈ (framed .sent (.pawn none)).launches, _
    decide +kernel
  · have h : (two .compute).pkgs.all (fun e => (e.2.tx ++ e.2.txHeld).isEmpty && e.2.rx.isEmpty) = true := by decide +kernel
    intro e he
    have := List.all_eq_true.mp h e he
    rw [Bool.and_eq_true, List.isEmpty_iff, List.isEmpty_iff] at this
    refine .inr ⟨fun f hf => ?_, fun r hr => ?_⟩
    · rw [this.1] at hf; exact nomatch hf
    · rw [this.2] at hr; exact nomatch hr

theorem visits_of {c v : List (BitVec 32)} (h : c.filter entryValid = v) (d n q : Nat) :
    (∃ e : BitVec 32, (c.filter entryValid)[n]? = some e ∧ entryDom e = d ∧ entryPkg e = q) ↔ (v.map fun e => (entryDom e, entryPkg e))[n]? = some (d, q) := by
  rw [h, List.getElem?_map]
  cases v[n]? <;> simp

/-- A schedule that keeps domain 0's visits, and one that moves them. -/
theorem wit_visits_kept : sameVisits [0x400, 0x500] [0x400, 0x501] 0 ∧ ¬sameVisits [0x400, 0x500] [0x500, 0x400] 0 := by
  have v1 : ([0x400, 0x500] : List (BitVec 32)).filter entryValid = [0x400, 0x500] := by decide +kernel
  have v2 : ([0x400, 0x501] : List (BitVec 32)).filter entryValid = [0x400, 0x501] := by decide +kernel
  have v3 : ([0x500, 0x400] : List (BitVec 32)).filter entryValid = [0x500, 0x400] := by decide +kernel
  have m1 : ([0x400, 0x500] : List (BitVec 32)).map (fun e => (entryDom e, entryPkg e)) = [(0, 0), (1, 0)] := by decide +kernel
  have m2 : ([0x400, 0x501] : List (BitVec 32)).map (fun e => (entryDom e, entryPkg e)) = [(0, 0), (1, 1)] := by decide +kernel
  have m3 : ([0x500, 0x400] : List (BitVec 32)).map (fun e => (entryDom e, entryPkg e)) = [(1, 0), (0, 0)] := by decide +kernel
  refine ⟨.inr ⟨congrArg List.length v1 |>.trans (congrArg List.length v2).symm, fun n q => ?_⟩, ?_⟩
  · refine (visits_of v1 0 n q).trans (Iff.trans ?_ (visits_of v2 0 n q).symm)
    rw [m1, m2]
    match n with
    | 0 | 1 | n + 2 => simp
  · rintro (h | ⟨-, h⟩)
    · have d : entryDom 0x400 = 0 := by decide +kernel
      exact h 0x400 (List.mem_append_left _ (v1 ▸ List.mem_cons_self)) d
    · have := (((visits_of v1 0 0 0).symm.trans (h 0 0)).trans (visits_of v3 0 0 0)).mp (by rw [m1]; rfl)
      rw [m3] at this
      exact absurd this (by simp)

/-- A power park on a package that has voted while another still computes (R376). -/
def voteParks : State := withP ((two .compute).modLpkg 0 0 fun y => { y with phase := .voted }) fun x => { x with power := { x.power with park7 := true } }

theorem wit_park_voted : (voteParks.pkg 0).parksAll = true ∧ (run.pkg 0).parksAll = false ∧ 0 ∈ (voteParks.launch 0).pkgs ∧ (∃ e ∈ (voteParks.launch 0).lp, e.2.phase = .compute) ∧
    openOn voteParks 0 0 := ⟨by decide +kernel, by decide +kernel, by decide +kernel, by decide +kernel, .inl (by decide +kernel)⟩

theorem test_park_voted : goes (.powerParkTimeout 0) voteParks (fun t => (t.lpkg 0 0).causes == [0x48]) = true := by decide +kernel

/-- Two launches on a package, of one package and of two. -/
theorem wit_pfail_more : let s : State := { two .compute with launches := (two .compute).launches ++ [(3, run.launch 0)] }
    (s.launches.map (·.1)).Nodup ∧ Tab.find s.launches 0 = some (s.launch 0) ∧ Tab.find s.launches 3 = some (run.launch 0) ∧ 0 ∈ (s.launch 0).pkgs ∧ 0 ∈ (s.launch 3).pkgs ∧
    1 < (s.launch 0).pkgs.length ∧ (s.launch 0).desc.replay = false := by decide +kernel

theorem test_pfail_more : goes (.pfail 0) { two .compute with launches := (two .compute).launches ++ [(3, run.launch 0)] } (fun t =>
    decide ((t.lpkg 0 0).phase = .aborting) && decide ((t.lpkg 3 0).phase = .stage) && (t.lpkg 3 0).reexec == 1) = true := by decide +kernel

/-- A packet that comes in ABORT. -/
theorem wit_packet_aborting : let s := { two .aborting with fabric := [packet .inFlight] }
    s.fabric[0]? = some (packet .inFlight) ∧ (packet .inFlight).gfaa = none ∧ 1 ∈ (s.launch 0).pkgs ∧ (s.lpkg 0 1).phase = .aborting := by decide +kernel

theorem test_packet_aborting : goes (.packetReceive 0) { two .aborting with fabric := [packet .inFlight] } (fun t => (t.launch 0).pends == [] && t.fabric.all fun q => decide (q.st = .received)) = true := by
  decide +kernel

/-- The last vote for a commit, the last package to learn of an abort, and the last notice with one page: of package 1, of package 0 from its pool and not from it. -/
def deciding : State :=
  withK (withY (framed .sent (.vote 0 0 0 (voteOf false))) fun y => { y with seen := [(0, voteOf false)], lasts := [0] }) fun k => { k with status := .atSync 1 0 }
def aborting : State := (framed .sent (.vote 0 0 0 (voteOf true))).modLpkg 0 1 fun y => { y with phase := .aborting }
def homePage : Shadow := { home := 0, vpn := 0x10000101, ppn := 0x100000, old := 5 }
def peerPage : Shadow := { home := 1, vpn := 0x10000104, ppn := 0x200000, old := 16 }
def noticed (h : Shadow) (out : List (Nat × Nat × Nat)) : State :=
  withP (framed .committed (.commit 0 0 [h])) fun x =>
    { x.modPool 0 (fun o => { o with out := out }) with hbm := labTables ++ Memory.cells (0x30000 + 8 * 0x104) (natLe 8 0x10001B), power := { x.power with dirtyOld := [0x100000] } }

theorem wit_last_vote : (let s := deciding
     noneEnded s ∧ noneWaiting s ∧ (s.pkg 0).failed = false ∧ (s.pkg 0).rx = (some (frame (.vote 0 0 0 (voteOf false))), 1) :: [] ∧ (voteOf false).abort = false ∧ (frame (.pawn none)).last = true ∧
     0 ∈ (s.launch 0).pkgs ∧ ((s.launch 0).lp.map (·.1)).Nodup ∧ Tab.find (s.launch 0).lp 0 = some (s.lpkg 0 0) ∧ (s.lpkg 0 0).phase = .sent ∧ (s.lpkg 0 0).sstep = 0 ∧ (s.lpkg 0 0).reexec = 0 ∧
     (∀ q ∈ (s.launch 0).pkgs, q = (frame (.pawn none)).src ∨ q ∈ (s.lpkg 0 0).lasts) ∧ 1 < (s.launch 0).pkgs.length ∧ (s.launch 0).desc.digestMode ≠ 2 ∧ (s.launch 0).fault = none ∧
     (s.launch 0).desc.elastic = false ∧ (∀ m, m < (s.launch 0).desc.ntile → s.tilePkg 0 m = 0 → (s.tile 0 m).parked = false) ∧ someSync s 0 0 ∧ ∀ e ∈ s.launches, e.1 ≤ s.free) ∧
    (let s := aborting
     noneEnded s ∧ noneWaiting s ∧ (s.pkg 0).failed = false ∧ (s.pkg 0).rx = (some (frame (.vote 0 0 0 (voteOf true))), 1) :: [] ∧ (voteOf true).abort = true ∧ (s.lpkg 0 0).phase = .sent ∧
     (∀ e ∈ (s.launch 0).lp, e.1 ≠ 0 → e.2.phase = .aborting) ∧ ∀ e ∈ (s.launch 0).lp, e.2.aborts < (s.launch 0).desc.limit ∧ ∀ c ∈ e.2.causes, c ∈ [0x40, 0x41, 0x42, 0x46, 0x49, 0x4A]) := by
  and_intros
  · show ∀ e ∈ deciding.launches, _
    decide +kernel
  · show ∀ e ∈ deciding.launches, _
    decide +kernel
  all_goals first
    | decide +kernel
    | exact ⟨0, 0, 1, 0, by decide +kernel⟩
    | (show ∀ e ∈ aborting.launches, _; decide +kernel)

theorem test_last_vote : goes (.voteFrame 0) deciding (fun t => decide ((t.lpkg 0 0).phase = .committed) && (t.lpkg 0 0).sstep == 1 && (t.lpkg 0 1).sstep == 0 &&
      (t.task (.thread 0 0 0)).bank.rx 1 == 0 && decide ((t.task (.thread 0 0 0)).status = .running) && (t.pkg 0).tx.any fun f => f.last && decide (f.pay = .commit 0 0 [])) = true ∧
    goes (.voteFrame 0) aborting (fun t => [0, 1].all fun p => decide ((t.lpkg 0 p).phase = .stage) && (t.lpkg 0 p).reexec == 1 && (t.lpkg 0 p).aborts == 1) = true := by decide +kernel

theorem wit_last_notice : (∀ e ∈ [(peerPage, ([] : List (Nat × Nat × Nat))), (homePage, [(0x100000, 0, 0)]), (homePage, [])], let s := noticed e.1 e.2
      noneEnded s ∧ noneWaiting s ∧ (s.pkg 0).failed = false ∧ (s.pkg 0).rx = (some (frame (.commit 0 0 [e.1])), 1) :: [] ∧ (frame (.pawn none)).src ≠ 0 ∧ (frame (.pawn none)).dom < 4 ∧
      (s.pkg 0).hosts 0 = true ∧ Tab.get (s.pkg 0).listing [] (1, 0, 0) ++ [e.1] = [e.1] ∧ e.1.ppn < 2 ^ 36 ∧ Tab.find s.launches 0 ≠ none) ∧
    entryAt (noticed peerPage []) 0 0 peerPage.vpn (0x30000 + 8 * 0x104) ∧ entryAt (noticed homePage []) 0 0 homePage.vpn (0x30000 + 8 * 0x101) ∧
    (let e := ((noticed peerPage []).pkg 0).hbm.nat (0x30000 + 8 * 0x104) 8; e / 8 % 2 = 1 ∧ e / 16 % 256 = peerPage.home) ∧ quiet (noticed homePage []) 0 0x100000 := by
  and_intros
  · refine onList_cons ?_ (onList_cons ?_ (onList_cons ?_ onList_nil)) <;> (unfold noneEnded noneWaiting; decide +kernel)
  · exact ⟨0x20000, 0x30000, by decide +kernel, by decide +kernel, rfl⟩
  · exact ⟨0x20000, 0x30000, by decide +kernel, by decide +kernel, rfl⟩
  · decide +kernel
  · decide +kernel
  · exact .inl ⟨by decide +kernel, by decide +kernel⟩

theorem test_last_notice : goes (.commitFrame 0) (noticed peerPage []) (fun t => (t.pkg 0).hbm.nat (0x30000 + 8 * 0x104) 8 == 0x200000001B) = true ∧
    goes (.commitFrame 0) (noticed homePage [(0x100000, 0, 0)]) (fun t => (t.pkg 0).hbm.nat (0x30000 + 8 * 0x101) 8 == 0x1000000003 && ((t.pkg 0).pool 0).releasing.map (·.ppn) == [5]) = true ∧
    goes (.commitFrame 0) (noticed homePage []) (fun t => (t.pkg 0).hbm.nat (0x30000 + 8 * 0x101) 8 == 0x50003) = true := by decide +kernel

/-! ### Commits -/

theorem one_commit {s : State} (h : soleLp (s.launch 0) 0 (s.lpkg 0 0) ∧ (s.launch 0).desc.digestMode ≠ 2 ∧ (s.launch 0).fault = none ∧ (s.launch 0).desc.elastic = false ∧
    (∀ n, n < (s.launch 0).desc.ntile → (s.tile 0 n).parked = false) ∧ ∀ e ∈ s.launches, e.1 ≤ s.free) (r : Bool) : OneCommit s 0 0 (s.lpkg 0 0) r :=
  ⟨by decide, h.1, h.2.1, h.2.2.1, fun he => absurd he (by rw [h.2.2.2.1]; decide), h.2.2.2.2.1, h.2.2.2.2.2⟩

theorem wit_one_commit : (∀ c ∈ [false, true], OneCommit (voted c) 0 0 ((voted c).lpkg 0 0) false) ∧ (∀ c ∈ [false, true], votesCommit ((voted c).lpkg 0 0) { voteOf false with ckpt := c }) ∧
    someSync (voted false) 0 0 ∧ noLaunches (voted false) 0 ∧
    LastPut ((voted false).launch 0).pends (tmPuts 0 8) 1 := by
  and_intros
  · refine onList_cons ?_ (onList_cons ?_ onList_nil) <;> exact one_commit (by unfold soleLp; decide +kernel) _
  · refine onList_cons ?_ (onList_cons ?_ onList_nil) <;> (unfold votesCommit; decide +kernel)
  · exact ⟨0, 0, 1, 0, by decide +kernel⟩
  · have h : ((voted false).launch 0).pends = [{ tile := 0, task := 0, seq := 0, eff := .tmWrite 0 true 8 [1, 2] }] := by decide +kernel
    intro e he va q
    rw [h] at he
    obtain rfl := List.mem_singleton.mp he
    exact fun h => nomatch h
  · have h : ((voted false).launch 0).pends = [{ tile := 0, task := 0, seq := 0, eff := .tmWrite 0 true 8 [1, 2] }] := by decide +kernel
    rw [h]
    refine ⟨0, _, rfl, ⟨true, 8, [1, 2], rfl, by decide, by decide, by decide⟩, fun i f c hf _ => ?_⟩
    match i with
    | 0 => exact .inl rfl
    | i + 1 => simp at hf

/-- A commit that gives a block away, loads a row of the direction table, and has a TRIG of the only task. -/
def effects : State := withL (voted false) fun x =>
  { x with pends := [{ tile := 0, task := 0, seq := 0, eff := .give 3 1 }, { tile := 0, task := 0, seq := 1, eff := .qrtld 2 [5] }, { tile := 0, task := 0, seq := 2, eff := .trig }] }

/-- They show after the commit (R26, R35, R242, R279). -/
theorem test_effects : goes (.ladderClose 0 0) effects (fun t => decide ((t.tile 0 0).own[3]? = some (.own 1)) && Memory.get (t.tile 0 0).qrtab 256 == 5 && (t.launch 0).trigs == [(0, 0)] &&
    (t.launch 0).trigHeld && (t.launch 0).trigDone) = true := by decide +kernel

/-- A launch about to commit a LAUNCH of queue 0 with a descriptor at the data page. -/
def launching (version : Nat) (va : Word) : State :=
  let s := withL (voted false) fun x => { x with pends := [{ tile := 0, task := 0, seq := 0, eff := .launch va 0 }] }
  withP (s.modQueue 0 0 0 fun q => { q with reserved := 1 }) fun x =>
    { x with hbm := hostMem.filter (fun c => c.1 < 0x50000) ++ Memory.cells 0x50000 (descBytes version), power := { x.power with dirtyOld := [5, 7] } }

theorem wit_launching : (∀ e ∈ [(0x00010001, vaData), (0x00010002, vaData), (0, (0x10 : Word))], let s := launching e.1 e.2
      OneCommit s 0 0 (s.lpkg 0 0) false ∧ votesCommit (s.lpkg 0 0) { voteOf false with ckpt := false } ∧ someSync s 0 0 ∧ (s.launch 0).dom < 4 ∧ (s.launch 0).shadows = [] ∧ (s.launch 0).again = []) ∧
    (launching 0 0x10).descUsable 0 0 0x10 = false ∧ (launching 0x00010001 vaData).descUsable 0 0 vaData.toNat = true ∧ (launching 0x00010002 vaData).descUsable 0 0 vaData.toNat = true ∧
    (launching 0x00010001 vaData).validate 0 0 0 (descOf ((launching 0x00010001 vaData).directRead 0 0 vaData.toNat 256)) false = none ∧
    (launching 0x00010002 vaData).validate 0 0 0 (descOf ((launching 0x00010002 vaData).directRead 0 0 vaData.toNat 256)) false = some 0x90 := by
  and_intros
  · refine onList_cons ?_ (onList_cons ?_ (onList_cons ?_ onList_nil)) <;>
      exact ⟨one_commit (by unfold soleLp; decide +kernel) _, by unfold votesCommit; decide +kernel, ⟨0, 0, 1, 0, by decide +kernel⟩, by decide +kernel, by decide +kernel, by decide +kernel⟩
  all_goals decide +kernel

/-- It is enqueued, or completes with the version's status, or is given up (R11, R31, R231). -/
theorem test_launching : goes (.ladderClose 0 0) (launching 0x00010001 vaData) (fun t => (((t.pkg 0).dom 0).queue 0).entries.length == 1 && (((t.pkg 0).dom 0).queue 0).reserved == 0) = true ∧
    goes (.ladderClose 0 0) (launching 0x00010002 vaData) (fun t => ((t.pkg 0).dom 0).done == [(2, 0x90)] && (((t.pkg 0).dom 0).queue 0).entries == []) = true ∧
    goes (.ladderClose 0 0) (launching 0 0x10) (fun t => ((t.pkg 0).dom 0).done == [] && (((t.pkg 0).dom 0).queue 0).reserved == 0) = true := by decide +kernel

/-- A commit with one broadcast write, where no other package hosts the domain and where one does. -/
def broadcasting (star : Bool) : State :=
  let s := withL (voted false) fun x => { x with pends := [{ tile := 0, task := 0, seq := 0, eff := .bst 511 7 }] }
  if star then { s with star := (starred .compute).star, pkgs := s.pkgs ++ [(1, s.pkg 0)] } else s

theorem wit_broadcasting : (∀ b ∈ [false, true], let s := broadcasting b
      OneCommit s 0 0 (s.lpkg 0 0) false ∧ votesCommit (s.lpkg 0 0) { voteOf false with ckpt := false } ∧ someSync s 0 0 ∧ s.sharedDom 0 0 = b ∧
      (s.launch 0).pends = [{ tile := 0, task := 0, seq := 0, eff := .bst 511 7 }]) ∧
    LastPut [{ tile := 0, task := 0, seq := 0, eff := .bst 511 7 }] (fun e w => e.eff = .bst 511 w) 7 := by
  constructor
  · refine onList_cons ?_ (onList_cons ?_ onList_nil) <;>
      exact ⟨one_commit (by unfold soleLp; decide +kernel) _, by unfold votesCommit; decide +kernel, ⟨0, 0, 1, 0, by decide +kernel⟩, by decide +kernel, by decide +kernel⟩
  · refine ⟨0, _, rfl, rfl, fun i f c hf _ => ?_⟩
    match i with
    | 0 => exact .inl rfl
    | i + 1 => simp at hf

/-- The table has the value; or a BCAST frame waits for the commit's COMMIT frames (R75). -/
theorem test_broadcasting : goes (.ladderClose 0 0) (broadcasting false) (fun t => Tab.get ((t.pkg 0).dom 0).bt 0 511 == 7) = true ∧
    goes (.ladderClose 0 0) (broadcasting true) (fun t => Tab.get ((t.pkg 0).dom 0).bt 0 511 == 0 && (t.pkg 0).txHeld.map (·.pay) == [.bcast 0 0 [(511, 7)]] &&
      (t.pkg 0).tx.map (·.pay) == [.commit 0 0 []]) = true := by decide +kernel

/-- CLOSING with a contribution of a member of group 0. -/
def grouped : State := withL (atSync .closing 0) fun x =>
  { x with desc := { x.desc with ngroups := 1 }, groups := [[0]], pends := [{ tile := 0, task := 0, seq := 0, eff := .gred 0 .maxd 5 }, { tile := 0, task := 0, seq := 1, eff := .gred 0 .maxd 0xFFFFFFFFFFFFFFFF }] }

theorem wit_grouped : OneCommit grouped 0 0 (grouped.lpkg 0 0) (grouped.syncFlag 0 0 1) ∧ (grouped.lpkg 0 0).phase = .closing ∧ (grouped.lpkg 0 0).causes = [] ∧ grouped.drained 0 0 = true ∧
    grouped.conflictsOn 0 0 = [] ∧ grouped.syncFlag 0 0 2 = false ∧ someSync grouped 0 0 ∧ 0 < (grouped.launch 0).desc.ntile ∧ grouped.tilePkg 0 0 = 0 ∧ (grouped.tile 0 0).retired = false ∧
    0 ∈ (grouped.launch 0).groups.getD 0 [] ∧ gredVals ((grouped.launch 0).pends.filter fun e => grouped.tilePkg 0 e.tile == 0) 0 .maxd = [5, 0xFFFFFFFFFFFFFFFF] ∧
    gredVals ((grouped.launch 0).pends.filter fun e => grouped.tilePkg 0 e.tile == 0) 0 .mind = [] ∧ gredValue .maxd [5, 0xFFFFFFFFFFFFFFFF] = 5 :=
  ⟨one_commit (by unfold soleLp; decide +kernel) _, by decide +kernel, by decide +kernel, by decide +kernel, by decide +kernel, by decide +kernel, ⟨0, 0, 1, 0, by decide +kernel⟩, by decide +kernel⟩

theorem test_grouped : goes (.vote 0 0) grouped (fun t => goes (.ladderClose 0 0) t fun u => (u.tile 0 0).gres == [((0, GOp.maxd.code), 5)]) = true := by decide +kernel

/-- A commit that makes the shadow page of the data page current, with two writes in it. -/
def pageLab : State :=
  let s := withL (voted false) fun x =>
    { x with shadows := [{ home := 0, vpn := 0x10000101, ppn := 0x100000, old := 5 }],
             pends := [{ tile := 0, task := 0, seq := 0, eff := .gWrite vaData [1, 2] }, { tile := 0, task := 0, seq := 1, eff := .gWrite (vaData + 1) [9] }] }
  withP s fun x =>
    { x.modPool 0 (fun o => { o with out := [(0x100000, 0, 0)] }) with
        hbm := labTables ++ Memory.cells 0x50000 [7, 7, 7, 7] ++ Memory.cells 0x1000000000 [7, 7, 7, 8],
             power := { x.power with dirtyOld := [0x100000] } }


theorem page_entry : entryAt pageLab 0 0 0x10000101 (0x30000 + 8 * 0x101) ∧ tablesOff pageLab 0 0 0x10000101 0x100000 := by
  refine ⟨⟨0x20000, 0x30000, by decide +kernel, by decide +kernel, rfl⟩, by decide +kernel, by decide +kernel, fun n1 n2 h1 h2 => ?_⟩
  have e1 : tableNext ((pageLab.pkg 0).hbm.nat (((pageLab.pkg 0).dom 0).cfg.root + 8 * bits (0x10000101 * 65536) 40 7) 8) = some 0x20000 := by decide +kernel
  obtain rfl : (0x20000 : Nat) = n1 := Option.some.inj (e1.symm.trans h1)
  have e2 : tableNext ((pageLab.pkg 0).hbm.nat (0x20000 + 8 * bits (0x10000101 * 65536) 28 12) 8) = some 0x30000 := by decide +kernel
  obtain rfl : (0x30000 : Nat) = n2 := Option.some.inj (e2.symm.trans h2)
  decide

theorem page_pends : (pageLab.launch 0).pends = [{ tile := 0, task := 0, seq := 0, eff := .gWrite vaData [1, 2] }, { tile := 0, task := 0, seq := 1, eff := .gWrite (vaData + 1) [9] }] := by decide +kernel

/-- Two writes of the page, of which the second has the greater key at byte 1; a contribution to a word of it instead. -/
theorem wit_page_commit : let h : Shadow := { home := 0, vpn := 0x10000101, ppn := 0x100000, old := 5 }
    OneCommit pageLab 0 0 (pageLab.lpkg 0 0) false ∧ votesCommit (pageLab.lpkg 0 0) { voteOf false with ckpt := false } ∧ someSync pageLab 0 0 ∧ noLaunches pageLab 0 ∧
    (pageLab.launch 0).desc.digestMode = 0 ∧ (pageLab.launch 0).shadows = [h] ∧ h.home = 0 ∧ h.ppn < 2 ^ 36 ∧ h.old ≠ h.ppn ∧ quiet pageLab 0 h.ppn ∧
    (h.ppn, 0, (pageLab.lpkg 0 0).sstep) ∈ ((pageLab.pkg 0).pool 0).out ∧ (∀ r ∈ ((pageLab.pkg 0).pool 0).releasing, r.ppn ≠ h.ppn) ∧
    (∀ e ∈ (pageLab.launch 0).pends, ∀ w bs, e.eff = .gWrite w bs → w.toNat % 65536 + bs.length ≤ 65536) ∧
    LastPut (pageLab.launch 0).pends (gPuts (0x10000101 * 65536 + 1)) 9 ∧ (pageLab.launch 0).inCounters (0x10000101 * 65536) = false ∧
    (∀ f ∈ (pageLab.launch 0).pends, ∀ w c fin, f.eff ≠ .redAdd w c fin) := by
  intro h
  have all : ∀ P : Pend → Prop, P { tile := 0, task := 0, seq := 0, eff := .gWrite vaData [1, 2] } → P { tile := 0, task := 0, seq := 1, eff := .gWrite (vaData + 1) [9] } →
      ∀ e ∈ (pageLab.launch 0).pends, P e := by
    intro P h1 h2
    rw [page_pends]
    exact onList_cons h1 (onList_cons h2 onList_nil)
  refine ⟨one_commit (by unfold soleLp; decide +kernel) _, by unfold votesCommit; decide +kernel, ⟨0, 0, 1, 0, by decide +kernel⟩, all _ ?_ ?_, by decide +kernel, by decide +kernel,
    rfl, by decide, by decide, .inl ⟨by decide +kernel, by decide +kernel⟩, by decide +kernel, by decide +kernel, all _ ?_ ?_, ?_, by decide +kernel, all _ ?_ ?_⟩
  · exact fun va q h => nomatch h
  · exact fun va q h => nomatch h
  · rintro w bs h; cases h; decide
  · rintro w bs h; cases h; decide
  · rw [page_pends]
    refine ⟨1, _, rfl, ⟨_, _, rfl, by decide, by decide, by decide⟩, fun i f c hf _ => ?_⟩
    match i with
    | 0 =>
      obtain rfl := Option.some.inj hf
      exact .inr (.inl (.inr ⟨rfl, .inr ⟨rfl, by decide⟩⟩))
    | 1 => exact .inl rfl
    | i + 2 => simp at hf
  · exact fun w c fin h => nomatch h
  · exact fun w c fin h => nomatch h

/-- The entry names the shadow page, byte 1 is the second write's, the others stay, and the old page is released (R65, R66, R68). -/
theorem test_page_commit : goes (.ladderClose 0 0) pageLab (fun t => (t.pkg 0).hbm.nat (0x30000 + 8 * 0x101) 8 == 0x1000000003 && (t.pkg 0).hbm.nat 0x1000000000 4 == 0x08070901 &&
    ((t.pkg 0).pool 0).releasing.map (·.ppn) == [5]) = true := by decide +kernel

/-- A reduction page whose word saturates. -/
def sumLab : State :=
  let s := withL pageLab fun x => { x with pends := [{ tile := 0, task := 0, seq := 0, eff := .redAdd vaData 5 true }] }
  withP s fun x => { x with hbm := labTables ++ Memory.cells 0x1000000000 (natLe 8 (2 ^ 63 - 2)) }

theorem wit_page_sum : (sumLab.launch 0).pends = [{ tile := 0, task := 0, seq := 0, eff := .redAdd vaData 5 true }] ∧ (sumLab.launch 0).desc.ctrCount = 0 ∧ vaData.toNat % 8 = 0 ∧
    0 < (sumLab.launch 0).desc.ntile ∧ sumLab.tilePkg 0 0 = 0 ∧ sint 64 ((sumLab.pkg 0).hbm.nat 0x1000000000 8) + 5 ≠ max (-(2 ^ 63 - 1)) (min (2 ^ 63 - 1) (2 ^ 63 - 2 + 5)) := by decide +kernel

theorem test_page_sum : goes (.ladderClose 0 0) sumLab (fun t => (t.pkg 0).hbm.nat 0x1000000000 8 == 2 ^ 63 - 1 && (t.tile 0 0).cflags.getLsbD 5) = true := by decide +kernel

theorem no_flips {s : State} {l : Nat} (h : s.pkgs.all (fun e => e.2.tx.isEmpty && e.2.rx.isEmpty) = true) : noneFlips s l := by
  intro e he
  have := List.all_eq_true.mp h e he
  simp only [Bool.and_eq_true, List.isEmpty_iff] at this
  refine .inr ⟨fun f hf => ?_, fun r hr => ?_⟩
  · rw [this.1] at hf; exact nomatch hf
  · rw [this.2] at hr; exact nomatch hr

/-- A launch whose only task has exited, or is killed, with its record at the data page or nowhere. -/
def ending (va : Word) (st : TaskStatus) : State :=
  let s := withL (voted false) fun x => { x with desc := { x.desc with complVa := va }, started := 1, pends := [] }
  withP (withK s fun k => { k with status := st }) fun x => { x with hbm := labTables, power := { x.power with dirtyOld := [5] } }

/-- What does not depend on how the launch ends. -/
theorem ending_meets {va : Word} {st : TaskStatus} (h : let s := ending va st
      (soleLp (s.launch 0) 0 (s.lpkg 0 0) ∧ (s.launch 0).desc.digestMode ≠ 2 ∧ (s.launch 0).fault = none ∧ (s.launch 0).desc.elastic = false ∧
        (∀ n, n < (s.launch 0).desc.ntile → (s.tile 0 n).parked = false) ∧ ∀ e ∈ s.launches, e.1 ≤ s.free) ∧
      ((s.lpkg 0 0).phase = .voted ∧ (s.lpkg 0 0).vote = some { voteOf false with ckpt := false }) ∧ (s.launch 0).pends = [] ∧ (s.launch 0).desc.digestMode = 0 ∧ (s.launch 0).shadows = [] ∧
      (s.launch 0).holdTiles = false ∧ (s.launch 0).status = 0 ∧ (s.launch 0).started ≠ 0 ∧ (s.launch 0).dom < 4 ∧ (s.launch 0).desc.tasks ≠ 0 ∧ (∀ q ∈ s.fabric, q.launch ≠ 0) ∧
      s.pkgs.all (fun e => e.2.tx.isEmpty && e.2.rx.isEmpty) = true)
    (all : ∀ n, n < (((ending va st).launch 0).desc.ntile) → ∀ i, i < ((ending va st).launch 0).desc.tasks →
      (ending va st).tilePkg 0 n = 0 ∧ ((ending va st).task (.thread 0 n i)).status ∈ [TaskStatus.atExit, .killed, .retired]) : let s := ending va st
    OneCommit s 0 0 (s.lpkg 0 0) false ∧ votesCommit (s.lpkg 0 0) { voteOf false with ckpt := false } ∧ (s.launch 0).pends = [] ∧ (s.launch 0).desc.digestMode = 0 ∧ (s.launch 0).shadows = [] ∧
      (s.launch 0).holdTiles = false ∧ (s.launch 0).status = 0 ∧ (s.launch 0).started ≠ 0 ∧ (s.launch 0).dom < 4 ∧ (s.launch 0).desc.tasks ≠ 0 ∧ noneFlips s 0 ∧ (∀ q ∈ s.fabric, q.launch ≠ 0) ∧
      ∀ n i, n < (s.launch 0).desc.ntile → i < (s.launch 0).desc.tasks → s.tilePkg 0 n = 0 ∧ (s.task (.thread 0 n i)).status ∈ [TaskStatus.atExit, .killed, .retired] := by
  obtain ⟨h1, ⟨h2, h3⟩, h4, h5, h6, h7, h8, h9, h10, h11, h12, h13⟩ := h
  exact ⟨one_commit h1 _, ⟨h2, h3, rfl⟩, h4, h5, h6, h7, h8, h9, h10, h11, no_flips h13, h12, fun n i hn hi => all n hn i hi⟩

theorem wit_ending : (∀ e ∈ [(vaData, TaskStatus.atExit), (0x0000100009000000, .killed)], let s := ending e.1 e.2
      OneCommit s 0 0 (s.lpkg 0 0) false ∧ votesCommit (s.lpkg 0 0) { voteOf false with ckpt := false } ∧ (s.launch 0).pends = [] ∧ (s.launch 0).desc.digestMode = 0 ∧ (s.launch 0).shadows = [] ∧
      (s.launch 0).holdTiles = false ∧ (s.launch 0).status = 0 ∧ (s.launch 0).started ≠ 0 ∧ (s.launch 0).dom < 4 ∧ (s.launch 0).desc.tasks ≠ 0 ∧ noneFlips s 0 ∧ (∀ q ∈ s.fabric, q.launch ≠ 0) ∧
      (∀ n i, n < (s.launch 0).desc.ntile → i < (s.launch 0).desc.tasks → s.tilePkg 0 n = 0 ∧ (s.task (.thread 0 n i)).status ∈ [TaskStatus.atExit, .killed, .retired])) ∧
    (ending vaData .atExit).xlateDom 0 0 vaData.toNat = some { home := 0, ppn := 5, pte := 0x50003 } ∧ (ending 0x0000100009000000 .killed).xlateDom 0 0 0x0000100009000000 = none ∧
    vaData.toNat % 32 = 0 ∧ tablesOff (ending vaData .atExit) 0 0 (vaData.toNat / 65536) 5 := by
  and_intros
  · refine onList_cons ?_ (onList_cons ?_ onList_nil)
    · exact ending_meets (by unfold soleLp; dsimp only; decide +kernel) (by decide +kernel)
    · exact ending_meets (by unfold soleLp; dsimp only; decide +kernel) (by decide +kernel)
  · decide +kernel
  · decide +kernel
  · decide +kernel
  · decide +kernel
  · decide +kernel
  · intro n1 n2 h1 h2
    have e1 : tableNext (((ending vaData .atExit).pkg 0).hbm.nat ((((ending vaData .atExit).pkg 0).dom 0).cfg.root + 8 * bits (vaData.toNat / 65536 * 65536) 40 7) 8) = some 0x20000 := by decide +kernel
    obtain rfl : (0x20000 : Nat) = n1 := Option.some.inj (e1.symm.trans h1)
    have e2 : tableNext (((ending vaData .atExit).pkg 0).hbm.nat (0x20000 + 8 * bits (vaData.toNat / 65536 * 65536) 28 12) 8) = some 0x30000 := by decide +kernel
    obtain rfl : (0x30000 : Nat) = n2 := Option.some.inj (e2.symm.trans h2)
    decide

/-- A launch whose record has no page ends all the same, with status 0 or, after a kill, 0x83 (R36, R297, R363). -/
theorem test_ending : goes (.ladderClose 0 0) (ending 0x0000100009000000 .atExit) (fun t => decide (Tab.find t.launches 0 = none) && (t.pkg 0).msix == [] && ((t.pkg 0).dom 0).done == [(1, 0)] &&
      t.tiles == [] && t.tasks == []) = true ∧
    goes (.ladderClose 0 0) (ending 0x0000100009000000 .killed) (fun t => ((t.pkg 0).dom 0).done == [(1, 0x83)]) = true := by decide +kernel

/-! ### Pairs, saves, sequences, refresh, registers -/

/-- The buddy's slot has room, the alternate's has, and neither tile is named or usable. -/
def altOnly : State := withP (frozen 8 false) fun x => { x with pairs := [(0, 0x1200)] }

theorem wit_pairs : paired ((frozen 8 false).pkg 0) 0 0 1 ∧ ((frozen 8 false).handler 0 1).queue.length < 4 ∧ ((frozen 8 false).tile 0 0).phys = 0 ∧
    paired (altOnly.pkg 0) 0 8 2 ∧ (altOnly.handler 0 2).queue.length < 4 ∧ (∀ c, ¬paired (altOnly.pkg 0) 0 0 c) ∧
    ∀ lo ∈ [0, 8], ∀ c, ¬paired ((withP (frozen 8 false) fun x => { x with pairs := [] }).pkg 0) 0 lo c := by
  refine ⟨?_, by decide +kernel, by decide +kernel, ?_, by decide +kernel, ?_, onList_cons ?_ (onList_cons ?_ onList_nil)⟩
  · unfold paired; decide +kernel
  · unfold paired; decide +kernel
  all_goals
    rintro c ⟨h, -⟩
    exact absurd h (by decide +kernel)

/-- The alternate's slot serves the trap where no buddy is named; without either it escalates (R291, R298). -/
theorem test_pairs : goes (.trapDelivery 0 0 0) altOnly (fun t => (t.handler 0 2).serving == some (.thread 0 0 0, true)) = true ∧
    goes (.trapDelivery 0 0 0) (withP (frozen 8 false) fun x => { x with pairs := [] }) (fun t => match (t.task (.thread 0 0 0)).status with
      | .escalated r => r.delivered
      | _ => false) = true := by decide +kernel

/-- VALID can be cleared in both slots of a mapped area, and not where the area has no page. -/
theorem wit_clear_both : ((parking false 1).clearBoth 0 0).2 = true ∧ ((withP (parking false 1) fun x => { x with hbm := [] }).clearBoth 0 0).2 = false := by decide +kernel

/-- A stage that a held move stops, and one that a save does. -/
theorem wit_stage_held : ((withL (inPhase .stage) fun x => { x with moveHeld := true }).launch 0).moveHeld = true ∧
    (let s := withT (inPhase .stage) fun x => { x with saving := true }
     ∃ n, n < (s.launch 0).desc.ntile ∧ (s.tile 0 n).saving = true) := ⟨by decide +kernel, 0, by decide +kernel⟩

/-- A sequence in its second repetition, whose repeated word a write to its page has changed since. -/
def inSequence : State :=
  let s := withP run fun x => { x with hbm := placedTables ++ Memory.cells 0x40000 (natLe 4 0x0E00500B ++ natLe 4 0x00100073) }
  withK s fun k => { k with inSeq := true, pair := some (0x0E00500B, 0x0000005B), bank := { k.bank with repRemain := 3, repIter := 1 } }

theorem wit_in_sequence : inSequence.canIssue inSequence.cur = true ∧ legal inSequence.inHandler inSequence.accs (.rep 3 4 0) = true ∧ (inSequence.task inSequence.cur).inSeq = true ∧
    (inSequence.task inSequence.cur).pair = some (0x0E00500B, 0x0000005B) ∧ inSequence.bank.repIter.toNat + inSequence.bank.repRemain.toNat = 3 + 1 ∧
    (match repCheck inSequence 3 4 0 with | .run 3 1 (.vfadd .f32 1 0 0 0) => true | _ => false) = true := by decide +kernel

/-- The word of the first repetition runs on (R181). -/
theorem test_in_sequence : goes (.rep 3 4 0) inSequence (fun t => t.bank.repRemain == 2 && t.bank.repIter == 2 && decide ((t.task t.cur).status = .running)) = true := by decide +kernel

/-- A tracked row behind another; a new row where one activation is enough. -/
def soon : State := withP (tracking []) fun x => { x with hbmStacks := [(15, { Stack.zero with thr := 1 })] }

theorem wit_rows : (let b := Tab.get ((tracking [(9, 1), (5, 4095), (7, 2)]).pkg 0).banks .zero (15, 3)
     b.tracker = true ∧ b.rows = [(9, 1)] ++ (5, 4095) :: [(7, 2)] ∧ 5 ∉ ([(9, 1)] ++ [(7, 2)] : List (Nat × Nat)).map (·.1)) ∧
    (Tab.get (soon.pkg 0).hbmStacks .zero 15).thr.toNat ≤ 1 ∧ (Tab.get (soon.pkg 0).banks .zero (15, 3)).tracker = true ∧ (Tab.get (soon.pkg 0).banks .zero (15, 3)).rows = [] := by decide +kernel

theorem test_rows : goes (.activate 0 15 3 5) (tracking [(9, 1), (5, 4095), (7, 2)]) (fun t => let b := Tab.get (t.pkg 0).banks .zero (15, 3)
      b.rows == [(9, 1), (7, 2)] && b.directed == [4, 6]) = true ∧
    goes (.activate 0 15 3 5) soon (fun t => let b := Tab.get (t.pkg 0).banks .zero (15, 3)
      b.rows == [] && b.directed == [4, 6]) = true := by decide +kernel

/-- The debug mirror of a tile whose domain is in DEBUG mode, and of one whose domain is not. -/
def mirrored (d : Bool) : State := withP run fun x => x.setDom 0 { x.dom 0 with cfg := { (x.dom 0).cfg with debug := d, dies := 1 } }

theorem wit_mirror : (∀ d ∈ [false, true], ((mirrored d).pkg 0).hosts 0 = true ∧ (((mirrored d).pkg 0).dom 0).cfg.dies.getLsbD (5 / 256) = true ∧
      ∀ e, e < 4 → ((mirrored d).pkg 0).hosts e = true ∧ (((mirrored d).pkg 0).dom e).cfg.dies.getLsbD (5 / 256) = true → (((mirrored d).pkg 0).dom e).cfg.debug = d) := by
  refine onList_cons ?_ (onList_cons ?_ onList_nil) <;> decide +kernel

/-- Writes that take effect: a comparator through the open mirror and not through the closed one, the drain budget, PWREVT, a nonce (R300, R359, R375, R386). -/
theorem test_takes : goes (.registerWrite 0 (0x300000 + 128 * 5) 8 0xFFFFFFFFFFFFFFFF false) (mirrored true) (fun t => (t.cmp 0 5).hbrk == 0x3FFF3FFF3FFF3FFF &&
      t.windowA 0 (0x300000 + 128 * 5) false == 0x3FFF3FFF3FFF3FFF) = true ∧
    goes (.registerWrite 0 (0x300000 + 128 * 5) 8 5 true) (mirrored false) (fun t => (t.cmp 0 5).hbrk == 0 && t.windowA 0 (0x300000 + 128 * 5) true == 0) = true ∧
    goes (.registerWrite 0 0x200018 8 0x12345 true) run (fun t => t.windowA 0 0x200018 true == 0x12345) = true ∧
    goes (.registerWrite 0 0x200038 8 2 false) (withPower fun w => { w with evt := 7 }) (fun t => t.windowA 0 0x200038 true == 5) = true ∧
    goes (.registerWrite 0 0x108 8 9 false) run (fun t => t.windowA 0 0x108 true == 9 && t.windowA 0 0x100 true == 0) = true ∧
    goes (.registerWrite 0 0x100018 8 (7 + 2 ^ 36) true) run (fun t => t.windowA 0 0x100018 true == 7 + 2 ^ 36) = true := by decide +kernel


/-! ### Waits, pages and packets between packages -/

/-- The served task has an SFU request on its way to v2, whose dwords of the window wait; those beside it do not. -/
def busyWindow : State := withX (serving.modTile 0 0 fun x => { x with sfu := [{ sfuOne 0 0 with vd := 2 }] }) [(2, 0xFFFFF00000000300)]

theorem wit_window_busy : busyWindow.readyFor (.ld 1 2 0) = true ∧ busyWindow.readyFor (.sd 1 2 0) = true ∧ busyWindow.winPlace (busyWindow.rx 2).toNat = some (.bank 0x300) ∧
    [(0x2F8, false), (0x300, true), (0x3FF, true), (0x400, false)].all (fun e => busyWindow.winBusy (.bank e.1) == e.2) = true := by decide +kernel

theorem test_window_busy : goes (.ld 1 2 0) busyWindow (fun t => t.rx 1 == busyWindow.rx 1 && (t.task t.cur).bank.pc == busyWindow.bank.pc) = true := by decide +kernel

/-- A descriptor whose first line ends its page; the page after it has no translation. -/
theorem wit_launch_crosses : let s := withX lab [(2, vaRead + 0xFFC0)]
    s.readyFor (.launch 2) = true ∧ (s.rx 2).toNat % 64 = 0 ∧ isGlob (s.rx 2).toNat = true ∧ ((List.range 64).all fun m => isGlob ((s.rx 2).toNat + m) && (s.xlate 0 0 ((s.rx 2).toNat + m)).isSome) = true ∧
    s.xlate 0 0 ((s.rx 2).toNat + 64) = none := by decide +kernel

theorem test_launch_crosses : goes (.launch 2) (withX lab [(2, vaRead + 0xFFC0)]) (fun t => match (t.task t.cur).status with
    | .frozen r => r.cause == 0x05 && r.tval == vaRead + 0x10000
    | _ => false) = true := by decide +kernel

/-- Every active byte lane of a form lies on a global page that tasks write, of this home. -/
def globalForm (s : State) (home : Nat) (f : VForm) : Bool := (f.addr 0).toNat % 4 == 0 && (List.range 256).all fun b => f.act b &&
  decide (regionOf (s.launch 0).desc.tmSize (s.launch 0).desc.ntile (f.addr b).toNat = .glob) && !(s.launch 0).inCounters (f.addr b).toNat &&
  (s.xlate 0 0 (f.addr b).toNat).any fun g => g.home == home && pteW g.pte && !pteSec g.pte && s.physOk g 0 && !s.isRed 0 g (f.addr b).toNat

/-- A vector store to a page homed here that has a shadow page, that has none yet, and one homed elsewhere. -/
theorem wit_vector_global : let s := withX lab [(2, vaData)]
    let u := withL s fun x => { x with shadows := [] }
    (∀ z ∈ [s, u], z.readyFor (.vst 1 2 0) = true ∧ (vstoreOf z (.vst 1 2 0)).any (globalForm z 0) = true) ∧
    (s.launch 0).shadows.any (fun h => h.home == 0 && h.vpn == vaData.toNat / 65536) = true ∧ (u.launch 0).shadows = [] ∧
    (((u.pkg 0).pool 0).take 0 0).isSome = true ∧ (((withP u fun x => x.modPool 0 fun o => { o with size := 0 }).pkg 0).pool 0).take 0 0 = none ∧
    (farData 0x10001B []).readyFor (.vst 1 2 0) = true ∧ (vstoreOf (farData 0x10001B []) (.vst 1 2 0)).any (globalForm (farData 0x10001B []) 1) = true := by
  and_intros
  · refine onList_cons ?_ (onList_cons ?_ onList_nil) <;> decide +kernel
  all_goals decide +kernel

/-- The first store takes the domain's own page, or votes 0x44; elsewhere four lines are held, on no path (R64, R336, R340, R367). -/
theorem test_vector_global : let u := withV (withX (withL lab fun x => { x with shadows := [] }) [(2, vaData)]) [(1, vbuild 8 256 fun k => k)]
    goes (.vst 1 2 0) u (fun t => (t.launch 0).shadows.map (·.ppn) == [0x100000] && ((t.pkg 0).pool 1) == ((u.pkg 0).pool 1) && gBytes (t.launch 0).pends == (List.range 256).map fun k => (vaData.toNat + k, BitVec.ofNat 8 k)) = true ∧
    goes (.vst 1 2 0) (withP u fun x => x.modPool 0 fun o => { o with size := 0 }) (fun t => (t.lpkg 0 0).causes == [0x44]) = true ∧
    goes (.vst 1 2 0) (farData 0x10001B []) (fun t => t.fabric.map (fun q => (q.dst, decide (q.st = .held), q.ra)) == [(1, true, 0x100000), (1, true, 0x100040), (1, true, 0x100080), (1, true, 0x1000C0)] && (t.launch 0).pends == []) = true := by
  decide +kernel

/-- A vector store to a tile on another package: each of its lines has a path, or none has. -/
def farLines (paths : List (Nat × BitVec 64)) : State := withV (withX (farTile paths) [(2, 0x10000200000)]) [(1, vbuild 8 256 fun k => k)]

theorem wit_vector_leaves : ∀ e ∈ [(([4, 5, 6, 7].map fun k => (k, pathWord)), true), ([], false)], let s := farLines e.1
    s.readyFor (.vst 1 2 0) = true ∧ s.tilePkg 0 1 ≠ s.tilePkg 0 0 ∧ (s.tile 0 1).retired = false ∧ (vstoreOf s (.vst 1 2 0)).any (fun f => (f.addr 0).toNat % 4 == 0 && (List.range 256).all fun b =>
      f.act b && regionOf (s.launch 0).desc.tmSize (s.launch 0).desc.ntile (f.addr b).toNat == .peer 1 b && (s.route 0 1 (BitVec.ofNat 64 (0x10000200000 + b / 64 * 64))).isSome == e.2) = true := by
  refine onList_cons ?_ (onList_cons ?_ onList_nil) <;> decide +kernel

/-- Four lines leave at once; without a path the package votes 0x42 (R336, R338). -/
theorem test_vector_leaves : goes (.vst 1 2 0) (farLines ([4, 5, 6, 7].map fun k => (k, pathWord))) (fun t => t.fabric.map (fun q => (q.dst, decide (q.st = .inFlight), q.ra)) ==
      [(1, true, 0x10000200000), (1, true, 0x10000200040), (1, true, 0x10000200080), (1, true, 0x100002000C0)] && (t.lpkg 0 0).causes == []) = true ∧
    goes (.vst 1 2 0) (farLines []) (fun t => (t.lpkg 0 0).causes == [0x42]) = true := by decide +kernel

/-- Two elements of a strided load, of own TM and of the tile's memory as a peer's. -/
def mixedLoad : State := (withX (withT lab fun x => { x with tm := Memory.cells 0x1000 [1, 2, 3, 4] }) [(2, 0x1000), (4, 0x10000000000)]).modBank fun b => b.wp 1 0xFF

theorem wit_vector_mixed : mixedLoad.readyFor (.vlds 1 2 4 1) = true ∧ (mixedLoad.task mixedLoad.cur).pend = [] ∧ (mixedLoad.task mixedLoad.cur).mreq = [] ∧
    (vloadOf mixedLoad (.vlds 1 2 4 1)).any (fun f => !f.contiguous && f.reg != { file := .p, num := 0 } && (List.range 256).all fun b => f.act b == decide (b < 8) && (!f.act b ||
      (f.addr (b / 4 * 4)).toNat % 4 == 0 && (if b < 4 then (f.addr b).toNat == 0x1000 + b && !((mixedLoad.tile 0 0).owner (f.addr b).toNat).isEngine
        else regionOf (mixedLoad.launch 0).desc.tmSize (mixedLoad.launch 0).desc.ntile (f.addr b).toNat == .peer 0 (0x1000 + b - 4) && !mixedLoad.lostRead 0 0 (f.addr b).toNat))) = true := by
  decide +kernel

/-- The result comes when it has been served: the own bytes twice, the lanes that are not active as they were (R55, R212). -/
theorem test_vector_mixed : goes (.vlds 1 2 4 1) mixedLoad (fun t => (t.task t.cur).pend.length == 1 && goes (.accessResult t.cur 0) t fun q =>
    (List.range 12).map (fun b => vbyte (q.bank.rv 1) b) == [1, 2, 3, 4, 1, 2, 3, 4, 0, 0, 0, 0]) = true := by decide +kernel

/-- A package whose drain ends while another one awaits its answer, before its vote and in ABORT; one with nothing on the way (R338, R339). -/
def darkening (ph : Phase) (sent : Bool) : State :=
  { (two ph).modPkg 1 fun x => { x with drain := .draining } with fabric := if sent then [packet .inFlight] else [] }

theorem wit_cut_off : (∀ e ∈ [Phase.compute, .aborting], let s := darkening e true
      (s.pkg 1).drain = .draining ∧ s.awaits 0 0 1 = true ∧ 0 ∈ (s.launch 0).pkgs ∧ packet .inFlight ∈ s.fabric ∧ (packet .inFlight).dst = 1 ∧ (s.lpkg 0 0).phase = e) ∧
    openOn (darkening .compute true) 0 0 ∧ ∀ c ∈ (darkening .compute false).launches, ∀ q ∈ c.2.pkgs, ¬(q ≠ 1 ∧ (darkening .compute false).awaits c.1 q 1 = true) := by
  refine ⟨onList_cons ?_ (onList_cons ?_ onList_nil), .inl (by decide +kernel), ?_⟩ <;> decide +kernel

theorem test_cut_off : goes (.drainEnd 1) (darkening .compute true) (fun t => (t.lpkg 0 0).causes == [0x42] && t.fabric == []) = true ∧
    goes (.drainEnd 1) (darkening .aborting true) (fun t => (t.launch 0).waitPaths.contains 0) = true ∧
    goes (.drainEnd 1) (darkening .compute false) (fun t => (t.lpkg 0 0).causes == []) = true := by decide +kernel

/-- A packet whose destination drains does not arrive, one whose destination answers does. -/
theorem wit_no_answer : ((darkening .compute true).pkg 1).drain = .draining ∧ (let s := { two .compute with fabric := [packet .inFlight] }
    (s.pkg 1).drain = .none ∧ (s.pkg 1).hosts 0 = true ∧ ((s.pkg 1).dom 0).restore = false) ∧
    goes (.packetReceive 0) (darkening .compute true) (fun t => t.fabric == [packet .inFlight]) = true ∧
    goes (.packetReceive 0) { two .compute with fabric := [packet .inFlight] } (fun t => t.fabric != [packet .inFlight]) = true := by decide +kernel

/-- A GFAA in flight at an abort is applied at its home first, whose page is dirty then (R343, R380). -/
def landing : State := { withY run (fun y => { y with causes := [0x40] }) with fabric := [{ packet .inFlight with gfaa := some { slot := .thread 0 0 0, id := 7, addr := 0x90000, add := 3 }, pends := [] }] }

theorem wit_landing : soleLp (landing.launch 0) 0 (landing.lpkg 0 0) ∧ (landing.lpkg 0 0).phase = .compute ∧ (landing.lpkg 0 0).causes = [0x40] ∧ (landing.lpkg 0 0).aborts < (landing.launch 0).desc.limit ∧
    (∃ q ∈ landing.fabric, q.launch = 0 ∧ q.st = .inFlight ∧ ∃ g, q.gfaa = some g) ∧
    goes (.earlyAbort 0) landing (fun t => t.fabric == [] && (t.pkg 1).power.dirty.contains 9 && decide ((t.lpkg 0 0).phase = .stage)) = true := by
  refine ⟨by unfold soleLp; decide +kernel, by decide +kernel, by decide +kernel, by decide +kernel, ⟨_, List.mem_singleton.2 rfl, rfl, rfl, _, rfl⟩, by decide +kernel⟩

/-- The end of STAGE takes the counters' snapshot through the tables as they are now (R63, R81). -/
def counting : State := withCounters (withP (withL (withY lab fun y => { y with phase := .stage }) fun x => { x with ptOld := [((0, 0x10000100), 0)] }) fun x => { x with hbm := labTables ++ Memory.cells 0x40000 [7, 6, 5] })

theorem test_snapshot : goes (.stageEnd 0) counting (fun t => (t.launch 0).ptOld == [] && [0, 1, 2, 3].map (fun o => Memory.get (t.launch 0).snap (vaText.toNat + o)) == [7, 6, 5, 0]) = true := by
  decide +kernel

/-- Broadcast writes of a committed superstep that a failed package's partner has not sent stay to be sent (R75, R352). -/
theorem test_bcast_stays : let f := frameOf 0 0 true (.bcast 0 0 [(511, 1)])
    goes (.packageFailed 1) (withP (two .committed) fun x => { x with tx := [f] }) (fun t => ((t.pkg 0).tx ++ (t.pkg 0).txHeld).contains f) = true := by decide +kernel

/-- A domain's pool is its own and ends where the next domain's begins (R64, R367). -/
theorem test_pool_size : goes (.domainConfiguration 0 1 { DomCfg.zero with plane := 1, poolSize := some 0x300000 }) lab (fun t =>
    ((t.pkg 0).pool 1).size == 0x200000 && ((t.pkg 0).pool 0) == ((lab.pkg 0).pool 0)) = true := by decide +kernel

/-- A die that has left service does not come back, though a launch that leaves holds it yet (R16, R45). -/
theorem test_lost_die : let s := withY run fun y => { y with phase := .parking }
    (s.launch 0).held.contains (0, 0) = true ∧ s.comingBack (s.launch 0) [0] 0 = [0] ∧
    (let t := withP s fun x => { x with harvest := x.harvest.set 0 0 }
     t.comingBack (t.launch 0) [0] 0 = []) := by decide +kernel
end Sys2Proof.Tests
end

section
/-!
PROOFS. Page-table writes (R62, R63).
-/

namespace Sys2Proof.Machine

open Sys2Proof Sys2Proof.Claims

/-! ### Page-table writes outside the global range (R46, R62) -/

/-- Package 0 hosts domain 0, whose tables lead from VA 0 to the level-2 table at 0x30000; nothing runs. -/
def tabledAtZero : State :=
  { State.reset with pkgs := [(0, { Pkg.zero.setDom 0 { Dom.zero with configured := true, cfg := { DomCfg.zero with root := 0x10000 } } with
      hbm := [(0x10000, 1), (0x10002, 2), (0x20000, 1), (0x20002, 3)] })] }

/-- An address outside the global range has no translation, whatever the tables hold (R46). -/
theorem State.xlateDom_of_not_isGlob (s : State) (p d : Nat) {va : Nat} (h : isGlob va = false) : s.xlateDom p d va = none := by
  simp [State.xlateDom, h]

/-- Refutes O48: the statement lets the VA of a page-table write lie outside the global range. VA 0 is an address of own TM, so no walk
begins for it, while its tables are there and the new entry is one that a walk accepts. -/
theorem not_tablesAndDomains : ¬ Obligations.TablesAndDomains := by
  unfold Obligations.TablesAndDomains
  rintro ⟨tables, -⟩
  obtain ⟨-, write⟩ := tables tabledAtZero 0 0 0 0x90001 (by decide) (by decide)
  obtain ⟨t, -, -, -, -, -, walk⟩ := write (by decide)
  have found := walk 0x20000 0x30000 (by decide) (by decide) (by decide) (by decide) (by decide)
  rw [State.xlateDom_of_not_isGlob t 0 0 (by decide), if_pos (by decide)] at found
  cases found

end Sys2Proof.Machine
end

section
/-!
PROOFS. Window A (R358): what each block of it reads and writes, and the accesses that are no naturally aligned 8-byte ones.
-/

namespace Sys2Proof.Machine

open Sys2Proof Sys2Proof.Claims

/-! ### The blocks of window A (R358) -/

theorem exec_registerWrite {p off size : Nat} (v : Word) (secure : Bool) (s : State) (hp : p < 192) (ho : off < 2 ^ 24) (hz : 1 ≤ size) :
    exec (.registerWrite p off size v secure) s = .next (s.registerWrite p off size v secure) :=
  event_completes (show (okPkg p && decide (off < 2 ^ 24) && decide (1 ≤ size)) = true by simpa [okPkg, hp, hz] using ho) s
    fun s => s.registerWrite p off size v secure

theorem exec_registerWrite_aligned {p off : Nat} (v : Word) (secure : Bool) (s : State) (hp : p < 192) (ho : off < 2 ^ 24) (h8 : off % 8 = 0) :
    exec (.registerWrite p off 8 v secure) s = .next (s.writeA p off v secure) := by
  rw [exec_registerWrite v secure s hp ho (by decide)]
  simp [State.registerWrite, h8]

section
variable (s : State) (p : Nat) {off n k : Nat} (v : Word) (secure : Bool)

theorem State.writeA_dev (h : off < 0x1000) : s.writeA p off v secure = s.devWrite p off v := if_pos h

theorem State.writeA_stack (e : off = 0x1000 + 64 * n + k) (hn : n < 16) (hk : k < 64) :
    s.writeA p off v secure = if secure then s.modPkg p fun x =>
      { x with hbmStacks := Tab.put x.hbmStacks n ((Tab.get x.hbmStacks .zero n).write k v) } else s := by
  have hd : (off - 0x1000) / 64 = n := by omega
  have hm : off % 64 = k := by omega
  rw [State.writeA, if_neg (by omega), if_pos (by omega), hd, hm]

theorem State.writeA_dom (e : off = 0x10000 * (n + 1) + k) (hn : n < 4) (hk : k < 0x10000) :
    s.writeA p off v secure = s.domWrite p n k v := by
  have hd : off / 0x10000 - 1 = n := by omega
  have hm : off % 0x10000 = k := by omega
  rw [State.writeA, if_neg (by omega), if_neg (by omega), if_pos (by omega), hd, hm]

theorem State.writeA_port (e : off = 0x100000 + 64 * n + k) (hn : n < 28) (hk : k < 64) :
    s.writeA p off v secure = s.portWrite p n k v secure := by
  have hd : (off - 0x100000) / 64 = n := by omega
  have hm : off % 64 = k := by omega
  rw [State.writeA, if_neg (by omega), if_neg (by omega), if_neg (by omega), if_pos (by omega), hd, hm]

theorem State.writeA_power (e : off = 0x200000 + k) (hk : k < 0x100) : s.writeA p off v secure = s.powerWrite p k v secure := by
  have hd : off - 0x200000 = k := by omega
  rw [State.writeA, if_neg (by omega), if_neg (by omega), if_neg (by omega), if_neg (by omega), if_pos (by omega), hd]

theorem State.writeA_mirror (e : off = 0x300000 + 128 * n + k) (hn : n < 2048) (hk : k < 128) :
    s.writeA p off v secure = if (s.pkg p).mirrorOpen n then s.setCmp p n ((s.cmp p n).write k v) else s := by
  have hd : (off - 0x300000) / 128 = n := by omega
  have hm : off % 128 = k := by omega
  rw [State.writeA, if_neg (by omega), if_neg (by omega), if_neg (by omega), if_neg (by omega), if_neg (by omega), if_pos (by omega)]
  simp only [hd, hm]

theorem State.windowA_dev (h : off < 0x1000) : s.windowA p off secure = (s.pkg p).devRead off := if_pos h

theorem State.windowA_stack (e : off = 0x1000 + 64 * n + k) (hn : n < 16) (hk : k < 64) :
    s.windowA p off secure = (s.pkg p).stackRead (64 * n + k) secure := by
  have hd : off - 0x1000 = 64 * n + k := by omega
  simp only [State.windowA, hd]
  rw [if_neg (by omega), if_pos (by omega)]

theorem State.windowA_port (e : off = 0x100000 + 64 * n + k) (hn : n < 28) (hk : k < 64) :
    s.windowA p off secure = ((s.pkg p).port n).read k secure := by
  have hd : (off - 0x100000) / 64 = n := by omega
  have hm : off % 64 = k := by omega
  simp only [State.windowA, hd, hm]
  rw [if_neg (by omega), if_neg (by omega), if_neg (by omega), if_pos (by omega)]

theorem State.windowA_power (e : off = 0x200000 + k) (hk : k < 0x100) : s.windowA p off secure = s.powerRead p k secure := by
  have hd : off - 0x200000 = k := by omega
  simp only [State.windowA, hd]
  rw [if_neg (by omega), if_neg (by omega), if_neg (by omega), if_neg (by omega), if_pos (by omega)]

theorem State.windowA_mirror (e : off = 0x300000 + 128 * n + k) (hn : n < 2048) (hk : k < 128) :
    s.windowA p off secure = if (s.pkg p).mirrorOpen n then (s.cmp p n).read k else 0 := by
  have hd : (off - 0x300000) / 128 = n := by omega
  have hm : off % 128 = k := by omega
  simp only [State.windowA, hd, hm]
  rw [if_neg (by omega), if_neg (by omega), if_neg (by omega), if_neg (by omega), if_neg (by omega), if_pos (by omega)]

end

/-! ### What window A reads of the state -/

theorem State.domRead_congr {s t : State} {p : Nat} (hl : t.launches = s.launches) (hd : (t.pkg p).doms = (s.pkg p).doms) (d k : Nat) :
    t.domRead p d k = s.domRead p d k := by
  have hlaunch : t.launch = s.launch := by funext l; simp only [State.launch, hl]
  simp only [State.domRead, Pkg.dom, hd, hlaunch]

theorem State.powerRead_congr {s t : State} {p : Nat} (hf : t.free = s.free) (hw : (t.pkg p).power = (s.pkg p).power) (k : Nat) (secure : Bool) :
    t.powerRead p k secure = s.powerRead p k secure := by
  simp only [State.powerRead, hf, hw]

theorem Pkg.mirrorOpen_congr {x y : Pkg} (hd : y.doms = x.doms) (n : Nat) : y.mirrorOpen n = x.mirrorOpen n := by
  simp only [Pkg.mirrorOpen, Pkg.domOfTile, Pkg.hosts, Pkg.dom, hd]

/-- A register reads the same in two states whose launches and domains are the same and that agree on the block the register is of. -/
theorem State.windowA_congr {s t : State} {p off : Nat} {secure : Bool} (hl : t.launches = s.launches) (hd : (t.pkg p).doms = (s.pkg p).doms)
    (dev : off < 0x1000 → (t.pkg p).devRead off = (s.pkg p).devRead off)
    (stack : ∀ n k, off = 0x1000 + 64 * n + k → k < 64 → (t.pkg p).stackRead (64 * n + k) secure = (s.pkg p).stackRead (64 * n + k) secure)
    (port : ∀ n k, off = 0x100000 + 64 * n + k → k < 64 → ((t.pkg p).port n).read k secure = ((s.pkg p).port n).read k secure)
    (power : ∀ k, off = 0x200000 + k → t.powerRead p k secure = s.powerRead p k secure)
    (mirror : ∀ n k, off = 0x300000 + 128 * n + k → n < 2048 → k < 128 → (t.cmp p n).read k = (s.cmp p n).read k) :
    t.windowA p off secure = s.windowA p off secure := by
  unfold State.windowA
  dsimp only
  split
  · next h => exact dev h
  · split
    · have := stack ((off - 0x1000) / 64) (off % 64) (by omega) (by omega)
      rwa [show 64 * ((off - 0x1000) / 64) + off % 64 = off - 0x1000 by omega] at this
    · split
      · exact State.domRead_congr hl hd _ _
      · split
        · exact port _ _ (by omega) (by omega)
        · split
          · exact power _ (by omega)
          · split
            · rw [Pkg.mirrorOpen_congr hd, mirror _ _ (by omega) (by omega) (by omega)]
            · rfl

/-- A change of a package that leaves its domains and its power block alone. -/
theorem State.windowA_modPkg {s : State} {p off : Nat} {secure : Bool} {f : Pkg → Pkg}
    (doms : (f (s.pkg p)).doms = (s.pkg p).doms) (power : (f (s.pkg p)).power = (s.pkg p).power)
    (dev : off < 0x1000 → (f (s.pkg p)).devRead off = (s.pkg p).devRead off)
    (stack : ∀ n k, off = 0x1000 + 64 * n + k → k < 64 → (f (s.pkg p)).stackRead (64 * n + k) secure = (s.pkg p).stackRead (64 * n + k) secure)
    (port : ∀ n k, off = 0x100000 + 64 * n + k → k < 64 → ((f (s.pkg p)).port n).read k secure = ((s.pkg p).port n).read k secure) :
    (s.modPkg p f).windowA p off secure = s.windowA p off secure := by
  have e : (s.modPkg p f).pkg p = f (s.pkg p) := State.pkg_modPkg s p f
  apply State.windowA_congr
  case hl => rfl
  case mirror => intros; rfl
  case power => intro k _; exact State.powerRead_congr (s := s) (t := s.modPkg p f) rfl (by rw [e, power]) k secure
  all_goals rw [e]; assumption

/-- A change of a package's power block. -/
theorem State.windowA_modPower {s : State} {p off : Nat} {secure : Bool} {f : Power → Power}
    (power : ∀ k, off = 0x200000 + k → (s.modPower p f).powerRead p k secure = s.powerRead p k secure) :
    (s.modPower p f).windowA p off secure = s.windowA p off secure := by
  have e : (s.modPower p f).pkg p = { s.pkg p with power := f (s.pkg p).power } := State.pkg_modPkg s p _
  refine State.windowA_congr rfl (by rw [e]) (fun _ => ?_) (fun _ _ _ _ => ?_) (fun _ _ _ _ => ?_) power fun _ _ _ _ _ => rfl <;> rw [e] <;> rfl

/-! ### A register that takes a write reads as written, and no other changes -/

/-- A write of a register of window A: it then reads `new`, and every other register of the package as before. -/
def ReadsAs (s t : State) (p off : Nat) (new : Word) : Prop :=
  t.windowA p off true = new ∧ ∀ o, o % 8 = 0 → o ≠ off → t.windowA p o true = s.windowA p o true

theorem onlyPkg_modPkg (s : State) (p : Nat) (f : Pkg → Pkg) : OnlyPkg p s (s.modPkg p f) :=
  ⟨rfl, fun _ h => State.pkg_modPkg_ne s f h⟩

theorem eq_of_lt_four {j : Nat} (h : j < 4) : j = 0 ∨ j = 1 ∨ j = 2 ∨ j = 3 := by omega

/-! #### The nonce (R359) -/

theorem State.devWrite_nonce (s : State) (p : Nat) (v : Word) {j : Nat} (hj : j < 4) :
    s.devWrite p (0x100 + 8 * j) v = s.modPkg p fun x => { x with nonce := x.nonce.set j v } := by
  obtain rfl | rfl | rfl | rfl := eq_of_lt_four hj <;> rfl

theorem Pkg.devRead_nonce (x : Pkg) {j : Nat} (hj : j < 4) : x.devRead (0x100 + 8 * j) = x.nonce[j] := by
  obtain rfl | rfl | rfl | rfl := eq_of_lt_four hj <;> rfl

theorem Pkg.devRead_setNonce_ne (x : Pkg) (v : Word) {j off : Nat} (hj : j < 4) (h : off ≠ 0x100 + 8 * j) :
    { x with nonce := x.nonce.set j v }.devRead off = x.devRead off := by
  unfold Pkg.devRead
  split
  case h_4 | h_5 | h_6 | h_7 => exact Vector.getElem_set_ne hj _ (by omega)
  all_goals rfl

theorem State.readsAs_nonce (s : State) (p : Nat) (v : Word) {j : Nat} (hj : j < 4) :
    ReadsAs s (s.modPkg p fun x => { x with nonce := x.nonce.set j v }) p (0x100 + 8 * j) v := by
  constructor
  · rw [State.windowA_dev _ _ _ (by omega), State.pkg_modPkg, Pkg.devRead_nonce _ hj]
    exact Vector.getElem_set_self hj
  · exact fun o _ ho => State.windowA_modPkg rfl rfl (fun _ => Pkg.devRead_setNonce_ne _ v hj ho) (fun _ _ _ _ => rfl) fun _ _ _ _ => rfl

/-! #### The refresh registers (R372) -/

/-- A refresh register of a stack, as the secure world reads it. -/
def Stack.read (st : Stack) : Nat → Word
  | 0 => BitVec.ofNat 64 (b01 st.trk)
  | 8 => st.thr.zeroExtend 64
  | 16 => st.level.zeroExtend 64
  | _ => 0

theorem Pkg.stackRead_secure (x : Pkg) {n k : Nat} (hk : k < 64) : x.stackRead (64 * n + k) true = (Tab.get x.hbmStacks .zero n).read k := by
  have hd : (64 * n + k) / 64 = n := by omega
  have hm : (64 * n + k) % 64 = k := by omega
  simp only [Pkg.stackRead, hd, hm]
  rfl

theorem Stack.read_write_ne (st : Stack) (v : Word) {k j : Nat} (h : j ≠ k) : (st.write k v).read j = st.read j := by
  unfold Stack.write
  split
  · unfold Stack.read
    split
    case h_1 => exact absurd rfl h
    all_goals rfl
  · split
    · rfl
    · unfold Stack.read
      split
      case h_2 => exact absurd rfl h
      all_goals rfl
  · split
    · rfl
    · unfold Stack.read
      split
      case h_3 => exact absurd rfl h
      all_goals rfl
  · rfl

/-- A change of one refresh register of a stack. -/
def Pkg.writeStack (x : Pkg) (n k : Nat) (v : Word) : Pkg :=
  { x with hbmStacks := Tab.put x.hbmStacks n ((Tab.get x.hbmStacks .zero n).write k v) }

theorem Pkg.stackRead_writeStack_ne (x : Pkg) (v : Word) {n k m j : Nat} (hj : j < 64) (h : m = n → j ≠ k) :
    (x.writeStack n k v).stackRead (64 * m + j) true = x.stackRead (64 * m + j) true := by
  rw [Pkg.stackRead_secure _ hj, Pkg.stackRead_secure _ hj]
  by_cases e : m = n
  · subst e
    rw [Pkg.writeStack, Tab.get_put_same, Stack.read_write_ne _ v (h rfl)]
  · rw [Pkg.writeStack, Tab.get_put_other _ _ _ e]

theorem State.readsAs_stack (s : State) (p : Nat) (v : Word) {off n k : Nat} (e : off = 0x1000 + 64 * n + k) (hn : n < 16) (hk : k < 64) :
    ReadsAs s (s.modPkg p fun x => x.writeStack n k v) p off (((Tab.get (s.pkg p).hbmStacks .zero n).write k v).read k) := by
  constructor
  · rw [State.windowA_stack _ _ _ e hn hk, State.pkg_modPkg, Pkg.stackRead_secure _ hk, Pkg.writeStack, Tab.get_put_same]
  · intro o _ ho
    exact State.windowA_modPkg rfl rfl (fun _ => rfl) (fun m j ej hj => Pkg.stackRead_writeStack_ne _ v hj (by omega)) fun _ _ _ _ => rfl

theorem Stack.read_write_trk (st : Stack) (v : Word) : (st.write 0 v).read 0 = BitVec.ofNat 64 (v.toNat % 2) := by
  have : v.toNat % 2 = 0 ∨ v.toNat % 2 = 1 := by omega
  rcases this with h | h <;> simp [Stack.write, Stack.read, bitAt, b01, h]

theorem low16_eq_ofNat (v : Word) : (v.setWidth 16).setWidth 64 = BitVec.ofNat 64 (v.toNat % 65536) :=
  BitVec.eq_of_toNat_eq (by simp)

theorem Stack.read_write_thr (st : Stack) (v : Word) :
    (st.write 8 v).read 8 = if v.toNat % 65536 = 0 then st.read 8 else BitVec.ofNat 64 (v.toNat % 65536) := by
  by_cases h : v.toNat % 65536 = 0
  · simp [Stack.write, h]
  · simp [Stack.write, Stack.read, h, ← low16_eq_ofNat]

theorem Stack.read_write_level (st : Stack) (v : Word) :
    (st.write 16 v).read 16 = if v.toNat % 65536 = 0 then st.read 16 else BitVec.ofNat 64 (v.toNat % 65536) := by
  by_cases h : v.toNat % 65536 = 0
  · simp [Stack.write, h]
  · simp [Stack.write, Stack.read, h, ← low16_eq_ofNat]

/-! #### The lane limits of a port (R331) -/

/-- A write of a port's lane limits; a MINLANES of 0 is not taken (log entry 45). -/
def Port.writeLimits (y : Port) (v : Word) : Port :=
  { y with thr := v.setWidth 32, minlanes := if bits v.toNat 32 6 == 0 then y.minlanes else BitVec.ofNat 6 (bits v.toNat 32 6) }

theorem Port.read_limits (y : Port) : y.read 0x18 true = BitVec.ofNat 64 (y.thr.toNat + y.minlanes.toNat * 2 ^ 32) := rfl

theorem Port.read_writeLimits_ne (y : Port) (v : Word) {k : Nat} (h : k ≠ 0x18) : (y.writeLimits v).read k true = y.read k true := by
  unfold Port.read
  split
  case h_4 => exact absurd rfl h
  all_goals rfl

theorem Port.read_writeLimits (y : Port) (v : Word) : (y.writeLimits v).read 0x18 true =
    BitVec.ofNat 64 (v.toNat % 2 ^ 32 + (if v.toNat / 2 ^ 32 % 64 = 0 then (y.read 0x18 true).toNat / 2 ^ 32 else v.toNat / 2 ^ 32 % 64) * 2 ^ 32) := by
  have ht := y.thr.isLt
  have hm := y.minlanes.isLt
  have old : (y.read 0x18 true).toNat / 2 ^ 32 = y.minlanes.toNat := by
    rw [Port.read_limits, BitVec.toNat_ofNat, Nat.mod_eq_of_lt (by omega)]
    omega
  rw [old, Port.read_limits]
  by_cases h : v.toNat / 4294967296 % 64 = 0 <;> simp [Port.writeLimits, bits, h]

theorem State.readsAs_limits (s : State) (p : Nat) (v : Word) {off n : Nat} (e : off = 0x100000 + 64 * n + 0x18) (hn : n < 28) :
    ReadsAs s (s.modPort p n fun y => y.writeLimits v) p off ((((s.pkg p).port n).writeLimits v).read 0x18 true) := by
  constructor
  · rw [State.windowA_port _ _ _ e hn (by decide), State.modPort, State.pkg_modPkg]
    simp only [Pkg.port, Tab.get_put_same]
  · intro o _ ho
    refine State.windowA_modPkg rfl rfl (fun _ => rfl) (fun _ _ _ _ => rfl) fun m j ej hj => ?_
    by_cases em : m = n
    · subst em
      simp only [Pkg.port, Tab.get_put_same]
      exact Port.read_writeLimits_ne _ v (by omega)
    · simp only [Pkg.port, Tab.get_put_other _ _ _ em]

/-! #### The power block (R375) -/

theorem State.readsAs_modPower {s : State} {p off k : Nat} {new : Word} {f : Power → Power} (e : off = 0x200000 + k) (hk : k < 0x100)
    (same : (s.modPower p f).powerRead p k true = new)
    (other : ∀ j, j ≠ k → (s.modPower p f).powerRead p j true = s.powerRead p j true) : ReadsAs s (s.modPower p f) p off new := by
  constructor
  · rw [State.windowA_power _ _ _ e hk, same]
  · exact fun o _ ho => State.windowA_modPower fun j ej => other j (by omega)

theorem State.readsAs_drainbud (s : State) (p : Nat) (v : Word) :
    ReadsAs s (s.modPower p fun w => { w with drainbud := v }) p 0x200018 v := by
  refine State.readsAs_modPower (k := 0x18) rfl (by decide) ?_ fun j hj => ?_ <;> simp only [State.powerRead, State.modPower, State.pkg_modPkg]
  · rfl
  · split
    case h_4 => exact absurd rfl hj
    all_goals rfl

theorem State.readsAs_draincap (s : State) (p : Nat) (v : Word) :
    ReadsAs s (s.modPower p fun w => { w with draincap := v, ceilPark := w.ceilPark && decide (v.toNat ≤ w.dirtyBytes) }) p 0x200020 v := by
  refine State.readsAs_modPower (k := 0x20) rfl (by decide) ?_ fun j hj => ?_ <;> simp only [State.powerRead, State.modPower, State.pkg_modPkg]
  · rfl
  · split
    case h_5 => exact absurd rfl hj
    all_goals rfl

/-- The PWREVT bits that are written 1 clear. -/
theorem State.readsAs_pwrevt (s : State) (p : Nat) (v : Word) :
    ReadsAs s (s.modPower p fun w => { w with evt := w.evt &&& ~~~(v.setWidth 3) }) p 0x200038 (s.windowA p 0x200038 true &&& ~~~v) := by
  refine State.readsAs_modPower (k := 0x38) rfl (by decide) ?_ fun j hj => ?_
  · rw [State.windowA_power (k := 0x38) _ _ _ rfl (by decide)]
    simp only [State.powerRead, State.modPower, State.pkg_modPkg]
    ext i hi
    by_cases h : i < 3
    · simp [h, hi]
    · simp [BitVec.getLsbD_of_ge _ i (Nat.le_of_not_lt h)]
  · simp only [State.powerRead, State.modPower, State.pkg_modPkg]
    split
    case h_7 => exact absurd rfl hj
    all_goals rfl

/-! #### The debug mirror (R300, R358) -/

theorem Cmps.read_write_ne (c : Cmps) (v : Word) {k j : Nat} (hk : k % 8 = 0) (hj : j % 8 = 0) (h : j ≠ k) : (c.write k v).read j = c.read j := by
  unfold Cmps.write
  simp only [beq_iff_eq]
  split
  · unfold Cmps.read
    simp only [beq_iff_eq, if_neg (show j ≠ 0 by omega)]
  · split
    · split <;> unfold Cmps.read <;> simp only [beq_iff_eq]
      · split
        · rfl
        · split
          · split
            · exact Vector.getElem_set_ne (by omega) _ (by omega)
            · rfl
          · rfl
      · split
        · rfl
        · split
          · split
            · rfl
            · exact Vector.getElem_set_ne (by omega) _ (by omega)
          · rfl
    · rfl

theorem Cmps.read_write_hbrk (c : Cmps) (v : Word) : (c.write 0 v).read 0 = v &&& hbrkMask := rfl

theorem Cmps.read_write_pc (c : Cmps) (v : Word) {i : Nat} (hi : i < 4) : (c.write (0x40 + 16 * i) v).read (0x40 + 16 * i) = v := by
  obtain rfl | rfl | rfl | rfl := eq_of_lt_four hi <;> simp [Cmps.write, Cmps.read]

theorem Cmps.read_write_sval (c : Cmps) (v : Word) {i : Nat} (hi : i < 4) : (c.write (0x48 + 16 * i) v).read (0x48 + 16 * i) = v := by
  obtain rfl | rfl | rfl | rfl := eq_of_lt_four hi <;> simp [Cmps.write, Cmps.read]

/-- Domain `e` of the package holds the die of tile `m`. -/
def Pkg.holdsTile (x : Pkg) (m e : Nat) : Prop := e < 4 ∧ x.hosts e = true ∧ (x.dom e).cfg.dies.getLsbD (m / 256) = true

theorem physDie_of_lt {m : Nat} (hm : m < 2048) : physDie m = m / 256 := by
  simp only [physDie, bits]
  omega

theorem Pkg.holdsTile_of_domOfTile {x : Pkg} {m e : Nat} (hm : m < 2048) (h : x.domOfTile m = some e) : x.holdsTile m e := by
  rw [Pkg.domOfTile, physDie_of_lt hm] at h
  have found := List.find?_some h
  rw [Bool.and_eq_true] at found
  exact ⟨List.mem_range.1 (List.mem_of_find?_eq_some h), found⟩

theorem Pkg.not_holdsTile_of_domOfTile {x : Pkg} {m : Nat} (hm : m < 2048) (h : x.domOfTile m = none) (e : Nat) : ¬x.holdsTile m e := by
  rw [Pkg.domOfTile, physDie_of_lt hm, List.find?_eq_none] at h
  rintro ⟨he, holds⟩
  exact h e (List.mem_range.2 he) (Bool.and_eq_true _ _ ▸ holds)

theorem Pkg.mirrorOpen_eq_true {x : Pkg} {m : Nat} (hm : m < 2048) (held : ∃ e, x.holdsTile m e)
    (allDebug : ∀ e, x.holdsTile m e → (x.dom e).cfg.debug = true) : x.mirrorOpen m = true := by
  unfold Pkg.mirrorOpen
  split
  · next h => exact allDebug _ (Pkg.holdsTile_of_domOfTile hm h)
  · next h =>
    obtain ⟨e, holds⟩ := held
    exact absurd holds (Pkg.not_holdsTile_of_domOfTile hm h e)

theorem Pkg.mirrorOpen_eq_false {x : Pkg} {m : Nat} (hm : m < 2048) (noneDebug : ∀ e, x.holdsTile m e → (x.dom e).cfg.debug = false) :
    x.mirrorOpen m = false := by
  unfold Pkg.mirrorOpen
  split
  · next h => exact noneDebug _ (Pkg.holdsTile_of_domOfTile hm h)
  · rfl

theorem State.cmp_setCmp_ne (s : State) (p : Nat) (c : Cmps) {m n : Nat} (hm : m < 2048) (hn : n < 2048) (h : n ≠ m) : (s.setCmp p m c).cmp p n = s.cmp p n :=
  Tab.get_put_other _ _ _ (by simp [Nat.mod_eq_of_lt hm, Nat.mod_eq_of_lt hn, h])

theorem State.readsAs_mirror (s : State) (p : Nat) (v : Word) {off m k : Nat} (e : off = 0x300000 + 128 * m + k) (hm : m < 2048) (hk : k < 128)
    (h8 : k % 8 = 0) (opened : (s.pkg p).mirrorOpen m = true) :
    ReadsAs s (s.setCmp p m ((s.cmp p m).write k v)) p off (((s.cmp p m).write k v).read k) := by
  constructor
  · rw [State.windowA_mirror _ _ _ e hm hk, State.cmp_setCmp]
    exact if_pos opened
  · intro o ho hne
    refine State.windowA_congr rfl rfl (fun _ => rfl) (fun _ _ _ _ => rfl) (fun _ _ _ _ => rfl) (fun _ _ => rfl) fun n j ej hn hj => ?_
    by_cases en : n = m
    · subst en
      rw [State.cmp_setCmp]
      exact Cmps.read_write_ne _ v h8 (by omega) (by omega)
    · rw [State.cmp_setCmp_ne _ _ _ hm hn en]

/-! ### Accesses that are no naturally aligned 8-byte ones (R358) -/

/-- What logging leaves alone: launches, tasks and tiles, and of a package all but memory, the security log, and the log indices of its
domains. -/
structure OnlyLogged (s t : State) : Prop where
  launches : t.launches = s.launches
  tasks : t.tasks = s.tasks
  tiles : t.tiles = s.tiles
  pkg : ∀ q, { t.pkg q with hbm := (s.pkg q).hbm, doms := (s.pkg q).doms, secLog := (s.pkg q).secLog } = s.pkg q
  queue : ∀ q d k, ((t.pkg q).dom d).queue k = ((s.pkg q).dom d).queue k

theorem OnlyLogged.refl (s : State) : OnlyLogged s s := ⟨rfl, rfl, rfl, fun _ => rfl, fun _ _ _ => rfl⟩

theorem OnlyLogged.trans {s t u : State} (h : OnlyLogged s t) (h' : OnlyLogged t u) : OnlyLogged s u where
  launches := h'.launches.trans h.launches
  tasks := h'.tasks.trans h.tasks
  tiles := h'.tiles.trans h.tiles
  pkg q := by rw [← h.pkg q, ← h'.pkg q]
  queue q d k := (h'.queue q d k).trans (h.queue q d k)

theorem OnlyLogged.modPkg (s : State) (p : Nat) (f : Pkg → Pkg)
    (pkg : { f (s.pkg p) with hbm := (s.pkg p).hbm, doms := (s.pkg p).doms, secLog := (s.pkg p).secLog } = s.pkg p)
    (queue : ∀ d k, ((f (s.pkg p)).dom d).queue k = ((s.pkg p).dom d).queue k) : OnlyLogged s (s.modPkg p f) where
  launches := rfl
  tasks := rfl
  tiles := rfl
  pkg q := by
    by_cases h : q = p
    · rw [h, State.pkg_modPkg, pkg]
    · rw [State.pkg_modPkg_ne _ _ h]
  queue q d k := by
    by_cases h : q = p
    · rw [h, State.pkg_modPkg, queue]
    · rw [State.pkg_modPkg_ne _ _ h]

theorem Pkg.dom_setDom (x : Pkg) (d e : Nat) (y : Dom) : (x.setDom d y).dom e = if d % 4 = e % 4 then y else x.dom e := by
  simp only [Pkg.dom, Pkg.setDom, Vector.getElem_set]

theorem OnlyLogged.modDom (s : State) (p d : Nat) (f : Dom → Dom) (h : (f ((s.pkg p).dom d)).queues = ((s.pkg p).dom d).queues) :
    OnlyLogged s (s.modDom p d f) := by
  refine OnlyLogged.modPkg s p _ rfl fun e k => ?_
  rw [Pkg.dom_setDom]
  split
  · next he =>
    simp only [Dom.queue, h]
    simp only [Pkg.dom, he]
  · rfl

theorem OnlyLogged.writeVia (s : State) (tr : State → Nat → Option Page) (va : Nat) (bs : List Byte) : OnlyLogged s (s.writeVia tr va bs) := by
  unfold State.writeVia
  induction bs.zipIdx generalizing s with
  | nil => exact OnlyLogged.refl s
  | cons e es ih =>
    refine OnlyLogged.trans ?_ (ih _)
    dsimp only
    split
    · exact OnlyLogged.modPkg s _ _ rfl fun _ _ => rfl
    · exact OnlyLogged.refl s

theorem OnlyLogged.tick (s : State) : OnlyLogged s s.tick := ⟨rfl, rfl, rfl, fun _ => rfl, fun _ _ _ => rfl⟩

theorem OnlyLogged.logEvent (s : State) (p d type code : Nat) (launch : Word) (detail : List Byte) :
    OnlyLogged s (s.logEvent p d type code launch detail) := by
  unfold State.logEvent
  dsimp only
  split
  · exact OnlyLogged.modDom s p d _ rfl
  · exact ((OnlyLogged.writeVia s _ _ _).trans (OnlyLogged.modDom _ p d _ rfl)).trans (OnlyLogged.tick _)

theorem OnlyLogged.logBadAccess (s : State) (p off : Nat) : OnlyLogged s (s.logBadAccess p off) := by
  unfold State.logBadAccess
  split
  · exact OnlyLogged.logEvent s _ _ _ _ _ _
  · split
    · exact OnlyLogged.logEvent s _ _ _ _ _ _
    · exact OnlyLogged.modPkg s p _ rfl fun _ _ => rfl

section
variable {s t : State} (h : OnlyLogged s t) (p : Nat)
include h

theorem OnlyLogged.power : (t.pkg p).power = (s.pkg p).power := by rw [← h.pkg p]
theorem OnlyLogged.ports : (t.pkg p).ports = (s.pkg p).ports := by rw [← h.pkg p]
theorem OnlyLogged.hbmStacks : (t.pkg p).hbmStacks = (s.pkg p).hbmStacks := by rw [← h.pkg p]
theorem OnlyLogged.hostData : (t.pkg p).hostData = (s.pkg p).hostData := by rw [← h.pkg p]

end

theorem aligned_eq_false {off size : Nat} (h : size ≠ 8 ∨ off % 8 ≠ 0) : (size == 8 && off % 8 == 0) = false := by
  rcases h with h | h <;> simp [h]

theorem State.registerWrite_bad (s : State) (p : Nat) {off size : Nat} (v : Word) (secure : Bool) (h : size ≠ 8 ∨ off % 8 ≠ 0) :
    s.registerWrite p off size v secure = s.logBadAccess p off := by
  rw [State.registerWrite, aligned_eq_false h]
  rfl

theorem State.hostData_registerRead_bad (s : State) (p : Nat) {off size : Nat} (secure : Bool) (h : size ≠ 8 ∨ off % 8 ≠ 0) :
    ((s.registerRead p off size secure).pkg p).hostData = List.replicate size 0xFF := by
  rw [State.registerRead, aligned_eq_false h]
  exact ((OnlyLogged.logBadAccess _ p off).hostData p).trans
    (congrArg Pkg.hostData (State.pkg_modPkg s p fun x => { x with hostData := List.replicate size 0xFF }))

theorem State.hostData_registerRead (s : State) (p : Nat) {off : Nat} (secure : Bool) (h : off % 8 = 0) :
    ((s.registerRead p off 8 secure).pkg p).hostData = natLe 8 (s.windowA p off secure).toNat := by
  have e : s.registerRead p off 8 secure = (s.modPkg p fun x => { x with hostData := natLe 8 (s.windowA p off secure).toNat }).tick := by
    simp [State.registerRead, h]
  rw [e]
  exact congrArg Pkg.hostData (State.pkg_modPkg s p fun x => { x with hostData := natLe 8 (s.windowA p off secure).toNat })

/-! ### The writes, register by register -/

section
variable {s : State} {p d n off : Nat} {v : Word} {secure : Bool}

/-- A write of window A is an event when both do the same to the state. -/
theorem registerWrite_eq_event (hp : p < 192) (ho : off < 2 ^ 24) (h8 : off % 8 = 0) {ok : Bool} (hok : ok = true) {f : State → State}
    (e : s.writeA p off v secure = f s) : exec (.registerWrite p off 8 v secure) s = event ok s f := by
  rw [exec_registerWrite_aligned v secure s hp ho h8, e, event_completes hok]

theorem registerWrite_eq_self (hp : p < 192) (ho : off < 2 ^ 24) (h8 : off % 8 = 0) (e : s.writeA p off v secure = s) :
    exec (.registerWrite p off 8 v secure) s = .next s := by
  rw [exec_registerWrite_aligned v secure s hp ho h8, e]

/-- A write that changes the package alone is taken when the register then reads as written. -/
theorem registerWrite_takes (hp : p < 192) (ho : off < 2 ^ 24) (h8 : off % 8 = 0) {f : Pkg → Pkg} {new : Word}
    (reads : ReadsAs s (s.modPkg p f) p off new) (e : s.writeA p off v secure = s.modPkg p f) :
    ∃ t, exec (.registerWrite p off 8 v secure) s = .next t ∧ OnlyPkg p s t ∧ ReadsAs s t p off new :=
  ⟨s.modPkg p f, by rw [exec_registerWrite_aligned v secure s hp ho h8, e], onlyPkg_modPkg s p f, reads⟩

/-! #### Registers whose write is an event -/

theorem State.domWrite_queue (s : State) (p d : Nat) (v : Word) {k : Nat} (hk : k < 0x80) :
    s.domWrite p d k v = if k % 16 = 0 then s.push p d (k / 16) v else s := by
  simp only [State.domWrite, if_pos hk, beq_iff_eq]

theorem registerWrite_qpush {q : Nat} (hp : p < 192) (hd : d < 4) (hq : q < 8) :
    exec (.registerWrite p (0x10000 * (d + 1) + 16 * q) 8 v secure) s = execQpush p d q v s := by
  refine registerWrite_eq_event hp (by omega) (by omega) (by simp [okPkg, okDom, okQueue, hp, hd, hq]) ?_
  rw [State.writeA_dom s p v secure rfl hd (by omega), State.domWrite_queue _ _ _ _ (by omega), if_pos (by omega),
    show 16 * q / 16 = q by omega]

theorem registerWrite_wbsel (hp : p < 192) (hd : d < 4) : exec (.registerWrite p (0x10000 * (d + 1) + 0x100) 8 v secure) s = execWbsel p d v s := by
  refine registerWrite_eq_event hp (by omega) (by omega) (by simp [okPkg, okDom, hp, hd]) ?_
  rw [State.writeA_dom s p v secure rfl hd (by decide)]
  rfl

theorem registerWrite_evtail (hp : p < 192) (hd : d < 4) : exec (.registerWrite p (0x10000 * (d + 1) + 0x110) 8 v secure) s = execEvtail p d v s := by
  refine registerWrite_eq_event hp (by omega) (by omega) (by simp [okPkg, okDom, hp, hd]) ?_
  rw [State.writeA_dom s p v secure rfl hd (by decide)]
  rfl

theorem registerWrite_rstgo (hp : p < 192) (hd : d < 4) : exec (.registerWrite p (0x10000 * (d + 1) + 0x120) 8 v secure) s = execRstgo p d v s := by
  refine registerWrite_eq_event hp (by omega) (by omega) (by simp [okPkg, okDom, hp, hd]) ?_
  rw [State.writeA_dom s p v secure rfl hd (by decide)]
  rfl

theorem registerWrite_attgo (hp : p < 192) : exec (.registerWrite p 0x120 8 v secure) s = execAttgo p v s := by
  refine registerWrite_eq_event hp (by decide) rfl (by simp [okPkg, hp]) ?_
  rw [State.writeA_dev s p v secure (by decide)]
  rfl

theorem registerWrite_pwrstep (hp : p < 192) : exec (.registerWrite p 0x200000 8 v secure) s = execPwrstep p v s := by
  refine registerWrite_eq_event hp (by decide) rfl (by simp [okPkg, hp]) ?_
  rw [State.writeA_power (k := 0) s p v secure rfl (by decide)]
  rfl

theorem registerWrite_pbcmd (hp : p < 192) : exec (.registerWrite p 0x200030 8 v secure) s =
    match v.toNat % 4 with
    | 1 => exec (.pbcmdStart p) s
    | 2 => exec (.pbcmdCommit p) s
    | 3 => exec (.pbcmdAbandon p) s
    | _ => .next s := by
  have ok : okPkg p = true := by simp [okPkg, hp]
  rw [exec_registerWrite_aligned v secure s hp (by decide) rfl, State.writeA_power (k := 0x30) s p v secure rfl (by decide), State.powerWrite]
  have small : v.toNat % 4 < 4 := Nat.mod_lt _ (by decide)
  generalize v.toNat % 4 = c at small ⊢
  obtain rfl | rfl | rfl | rfl := eq_of_lt_four small
  · rfl
  · exact (event_completes ok s fun s => s.pbStart p).symm
  · exact (event_completes ok s fun s => s.pbCommit p).symm
  · exact (event_completes ok s fun s => s.pbAbandon p).symm

theorem registerWrite_clrfail (hp : p < 192) (hn : n < 28) :
    exec (.registerWrite p (0x100020 + 64 * n) 8 v secure) s = if v.getLsbD 63 = true then exec (.clrfail p n) s else .next s := by
  rw [exec_registerWrite_aligned v secure s hp (by omega) (by omega), State.writeA_port (k := 0x20) s p v secure (by omega) hn (by decide)]
  have bit : bitAt v.toNat 63 = v.getLsbD 63 := by
    rw [bitAt, BitVec.getLsbD, Nat.testBit_eq_decide_div_mod_eq]
    rfl
  simp only [State.portWrite, bit]
  split
  · exact (event_completes (show (okPkg p && okPort n) = true by simp [okPkg, okPort, hp, hn]) s fun s => s.clrfail p n).symm
  · rfl

/-! #### Registers that keep their value -/

theorem registerWrite_readOnly {q : Nat} (hp : p < 192) (hd : d < 4) (hq : q < 8) (hn : n < 28) :
    ∀ off ∈ [0x000, 0x008, 0x010, 0x200008, 0x200010, 0x200028, 0x10000 * (d + 1) + 16 * q + 8, 0x100000 + 64 * n, 0x100008 + 64 * n, 0x100010 + 64 * n],
      exec (.registerWrite p off 8 v secure) s = .next s := by
  have dev : ∀ off ∈ [0x000, 0x008, 0x010], exec (.registerWrite p off 8 v secure) s = .next s := by
    simp only [List.forall_mem_cons]
    refine ⟨?_, ?_, ?_, by simp⟩ <;> exact registerWrite_eq_self hp (by decide) rfl (State.writeA_dev s p v secure (by decide))
  have power : ∀ k ∈ [0x08, 0x10, 0x28], exec (.registerWrite p (0x200000 + k) 8 v secure) s = .next s := by
    simp only [List.forall_mem_cons]
    refine ⟨?_, ?_, ?_, by simp⟩ <;> exact registerWrite_eq_self hp (by decide) rfl (State.writeA_power s p v secure rfl (by decide))
  have port : ∀ k ∈ [0x00, 0x08, 0x10], exec (.registerWrite p (0x100000 + 64 * n + k) 8 v secure) s = .next s := by
    simp only [List.forall_mem_cons]
    refine ⟨?_, ?_, ?_, by simp⟩ <;> exact registerWrite_eq_self hp (by omega) (by omega) (State.writeA_port s p v secure rfl hn (by decide))
  have stat : exec (.registerWrite p (0x10000 * (d + 1) + 16 * q + 8) 8 v secure) s = .next s := by
    refine registerWrite_eq_self hp (by omega) (by omega) ?_
    rw [State.writeA_dom (k := 16 * q + 8) s p v secure (by omega) hd (by omega), State.domWrite_queue _ _ _ _ (by omega), if_neg (by omega)]
  simp only [List.forall_mem_cons] at dev power port ⊢
  obtain ⟨dev0, dev8, dev10, -⟩ := dev
  obtain ⟨power8, power10, power28, -⟩ := power
  obtain ⟨port0, port8, port10, -⟩ := port
  rw [show 0x100008 + 64 * n = 0x100000 + 64 * n + 8 by omega, show 0x100010 + 64 * n = 0x100000 + 64 * n + 0x10 by omega]
  exact ⟨dev0, dev8, dev10, power8, power10, power28, stat, port0, port8, port10, by simp⟩

/-- The registers that only the secure world writes and reads. -/
theorem registerWrite_host {m : Nat} (hp : p < 192) (hn : n < 16) (hm : m < 28) :
    ∀ off ∈ [0x1000 + 64 * n, 0x1008 + 64 * n, 0x1010 + 64 * n, 0x100018 + 64 * m, 0x200018, 0x200020], exec (.registerWrite p off 8 v false) s = .next s := by
  have stack : ∀ off k, off = 0x1000 + 64 * n + 8 * k → k < 8 → exec (.registerWrite p off 8 v false) s = .next s := fun off k e hk =>
    registerWrite_eq_self hp (by omega) (by omega) (State.writeA_stack s p v false e hn (by omega))
  simp only [List.forall_mem_cons]
  refine ⟨stack _ 0 rfl (by decide), stack _ 1 (by omega) (by decide), stack _ 2 (by omega) (by decide), ?_, ?_, ?_, by simp⟩
  · exact registerWrite_eq_self hp (by omega) (by omega) (State.writeA_port (k := 0x18) s p v false (by omega) hm (by decide))
  · exact registerWrite_eq_self hp (by decide) rfl (State.writeA_power (k := 0x18) s p v false rfl (by decide))
  · exact registerWrite_eq_self hp (by decide) rfl (State.writeA_power (k := 0x20) s p v false rfl (by decide))

theorem windowA_host {m : Nat} (hn : n < 16) (hm : m < 28) :
    ∀ off ∈ [0x1000 + 64 * n, 0x1008 + 64 * n, 0x1010 + 64 * n, 0x100018 + 64 * m, 0x200018, 0x200020], s.windowA p off false = 0 := by
  have stack : ∀ off k, off = 0x1000 + 64 * n + 8 * k → k < 8 → s.windowA p off false = 0 := fun off k e hk =>
    State.windowA_stack s p false e hn (by omega)
  simp only [List.forall_mem_cons]
  refine ⟨stack _ 0 rfl (by decide), stack _ 1 (by omega) (by decide), stack _ 2 (by omega) (by decide), ?_, ?_, ?_, by simp⟩
  · exact State.windowA_port (k := 0x18) s p false (by omega) hm (by decide)
  · exact State.windowA_power (k := 0x18) s p false rfl (by decide)
  · exact State.windowA_power (k := 0x20) s p false rfl (by decide)

end

/-! #### Registers that read as written -/

section
variable {s : State} {p n : Nat} {v : Word} {secure : Bool}

theorem State.windowA_stack_secure (s : State) (p : Nat) {off n k : Nat} (e : off = 0x1000 + 64 * n + k) (hn : n < 16) (hk : k < 64) :
    s.windowA p off true = (Tab.get (s.pkg p).hbmStacks .zero n).read k := by
  rw [State.windowA_stack s p true e hn hk, Pkg.stackRead_secure _ hk]

theorem registerWrite_takes_stack {off k : Nat} {new : Word} (hp : p < 192) (hn : n < 16) (e : off = 0x1000 + 64 * n + 8 * k) (hk : k < 8)
    (hnew : ((Tab.get (s.pkg p).hbmStacks .zero n).write (8 * k) v).read (8 * k) = new) :
    ∃ t, exec (.registerWrite p off 8 v true) s = .next t ∧ OnlyPkg p s t ∧ ReadsAs s t p off new := by
  subst hnew
  exact registerWrite_takes hp (by omega) (by omega) (State.readsAs_stack s p v e hn (by omega)) (State.writeA_stack s p v true e hn (by omega))

/-- The registers that take a write of the secure world. -/
theorem registerWrite_secure {m : Nat} (hp : p < 192) (hn : n < 16) (hm : m < 28) :
    let takes := fun off new => ∃ t, exec (.registerWrite p off 8 v true) s = .next t ∧ OnlyPkg p s t ∧ ReadsAs s t p off new
    let old := fun off => s.windowA p off true
    let some16 := fun off => if v.toNat % 65536 = 0 then old off else BitVec.ofNat 64 (v.toNat % 65536)
    let lanes := 0x100018 + 64 * m
    let minlanes := if v.toNat / 2 ^ 32 % 64 = 0 then (old lanes).toNat / 2 ^ 32 else v.toNat / 2 ^ 32 % 64
    takes (0x1000 + 64 * n) (BitVec.ofNat 64 (v.toNat % 2)) ∧ takes (0x1008 + 64 * n) (some16 (0x1008 + 64 * n)) ∧
      takes (0x1010 + 64 * n) (some16 (0x1010 + 64 * n)) ∧ takes lanes (BitVec.ofNat 64 (v.toNat % 2 ^ 32 + minlanes * 2 ^ 32)) ∧
      takes 0x200018 v ∧ takes 0x200020 v := by
  intro takes old some16 lanes minlanes
  have thr : old (0x1008 + 64 * n) = _ := State.windowA_stack_secure (k := 8) s p (by omega) hn (by decide)
  have level : old (0x1010 + 64 * n) = _ := State.windowA_stack_secure (k := 16) s p (by omega) hn (by decide)
  have elanes : lanes = 0x100000 + 64 * m + 0x18 := by omega
  have limits : old lanes = _ := State.windowA_port s p true elanes hm (by decide)
  refine ⟨registerWrite_takes_stack (k := 0) hp hn rfl (by decide) (Stack.read_write_trk _ v), ?_, ?_, ?_, ?_, ?_⟩
  · refine registerWrite_takes_stack (k := 1) hp hn (by omega) (by decide) ?_
    simp only [some16, thr]
    exact Stack.read_write_thr _ v
  · refine registerWrite_takes_stack (k := 2) hp hn (by omega) (by decide) ?_
    simp only [some16, level]
    exact Stack.read_write_level _ v
  · simp only [minlanes, limits, ← Port.read_writeLimits]
    exact registerWrite_takes hp (by omega) (by omega) (State.readsAs_limits s p v elanes hm) (State.writeA_port s p v true elanes hm (by decide))
  · exact registerWrite_takes hp (by decide) rfl (State.readsAs_drainbud s p v) (State.writeA_power (k := 0x18) s p v true rfl (by decide))
  · exact registerWrite_takes hp (by decide) rfl (State.readsAs_draincap s p v) (State.writeA_power (k := 0x20) s p v true rfl (by decide))

theorem registerWrite_takes_pwrevt (hp : p < 192) : ∃ t, exec (.registerWrite p 0x200038 8 v secure) s = .next t ∧ OnlyPkg p s t ∧
    ReadsAs s t p 0x200038 (s.windowA p 0x200038 true &&& ~~~v) :=
  registerWrite_takes hp (by decide) rfl (State.readsAs_pwrevt s p v) (State.writeA_power (k := 0x38) s p v secure rfl (by decide))

theorem registerWrite_takes_nonce {j : Nat} (hp : p < 192) (hj : j < 4) :
    ∃ t, exec (.registerWrite p (0x100 + 8 * j) 8 v secure) s = .next t ∧ OnlyPkg p s t ∧ ReadsAs s t p (0x100 + 8 * j) v := by
  refine registerWrite_takes hp (by omega) (by omega) (State.readsAs_nonce s p v hj) ?_
  rw [State.writeA_dev s p v secure (by omega), State.devWrite_nonce s p v hj]

/-! #### The debug mirror -/

theorem registerWrite_mirror_open {off m k : Nat} {new : Word} (hp : p < 192) (hm : m < 2048) (e : off = 0x300000 + 128 * m + k) (hk : k < 128) (h8 : k % 8 = 0)
    (opened : (s.pkg p).mirrorOpen m = true) (hnew : ((s.cmp p m).write k v).read k = new) :
    ∃ t, exec (.registerWrite p off 8 v secure) s = .next t ∧ { t with cmps := s.cmps } = s ∧
      (∀ i, i ≠ (p, m) → Tab.get t.cmps .zero i = Tab.get s.cmps .zero i) ∧ ReadsAs s t p off new := by
  subst hnew
  refine ⟨s.setCmp p m ((s.cmp p m).write k v), ?_, rfl, fun i hi => ?_, State.readsAs_mirror s p v e hm hk h8 opened⟩
  · rw [exec_registerWrite_aligned v secure s hp (by omega) (by omega), State.writeA_mirror s p v secure e hm hk, if_pos opened]
  · exact Tab.get_put_other _ _ _ (by rwa [Nat.mod_eq_of_lt hm])

theorem registerWrite_mirror_closed {off m : Nat} (hp : p < 192) (hm : m < 2048) (lo : 0x300000 + 128 * m ≤ off) (hi : off < 0x300000 + 128 * m + 128)
    (h8 : off % 8 = 0) (closed : (s.pkg p).mirrorOpen m = false) :
    exec (.registerWrite p off 8 v secure) s = .next s ∧ s.windowA p off true = 0 := by
  have e : off = 0x300000 + 128 * m + (off - (0x300000 + 128 * m)) := by omega
  constructor
  · refine registerWrite_eq_self hp (by omega) h8 ?_
    rw [State.writeA_mirror s p v secure e hm (by omega), closed]
    rfl
  · rw [State.windowA_mirror s p true e hm (by omega), closed]
    rfl

end

/-- Settles O45, block by block of window A: a write is the event of its register, is not taken, or changes the one register
that it names. -/
theorem registerWrites : Obligations.RegisterWrites := by
  intro s p d q n port v secure hp hd hq hn hport
  refine ⟨registerWrite_qpush hp hd hq, registerWrite_wbsel hp hd, registerWrite_evtail hp hd, registerWrite_rstgo hp hd, registerWrite_attgo hp,
    registerWrite_pwrstep hp, registerWrite_pbcmd hp, registerWrite_clrfail hp hport, registerWrite_readOnly hp hd hq hport, ?_, ⟨?_, ?_, ?_, ?_⟩,
    windowA_host hn hport, fun _ => State.hostData_registerRead s p secure, fun _ _ => State.hostData_registerRead_bad s p secure, ?_⟩
  · rintro rfl
    exact registerWrite_host hp hn hport
  · rintro rfl
    exact registerWrite_secure hp hn hport
  · exact registerWrite_takes_pwrevt hp
  · exact fun _ => registerWrite_takes_nonce hp
  · intro m c hm hc
    refine ⟨fun held allDebug => ?_, fun noneDebug off lo hi h8 => registerWrite_mirror_closed hp hm lo hi h8 (Pkg.mirrorOpen_eq_false hm noneDebug)⟩
    have opened := Pkg.mirrorOpen_eq_true hm held allDebug
    exact ⟨registerWrite_mirror_open (k := 0) hp hm rfl (by decide) rfl opened (Cmps.read_write_hbrk _ v),
      registerWrite_mirror_open hp hm (Nat.add_assoc _ _ _) (by omega) (by omega) opened (Cmps.read_write_pc _ v hc),
      registerWrite_mirror_open hp hm (Nat.add_assoc _ _ _) (by omega) (by omega) opened (Cmps.read_write_sval _ v hc)⟩
  · intro off size ho hz bad
    have logged := OnlyLogged.logBadAccess s p off
    refine ⟨s.logBadAccess p off, ?_, logged.launches, logged.tasks, logged.tiles, logged.power p, logged.ports p,
      logged.hbmStacks p, logged.queue p d⟩
    rw [exec_registerWrite v secure s hp ho hz, State.registerWrite_bad s p v secure bad]

end Sys2Proof.Machine
end
